-- ==== Sys2Proof/Word.lean ====
section
/-! DEFINITION. The word types of the core: the command word of format CMD16, the state tag and response
byte, the code held in FAULT (spec/30_encoding R80, R81, R84, R90; spec/10_state R34). -/

namespace Sys2Proof

/-- A command word, format CMD16 (R81). -/
abbrev CmdWord := BitVec 16

/-- An 8-bit quantity: the tag held in `STATE` (R84), a response (R90), a byte operand (R82), `SH` and `ACC` (R35). -/
abbrev Byte := BitVec 8

/-- The content of `FAULT`, 3 bits (R34). -/
abbrev FaultBits := BitVec 3

end Sys2Proof
end

