-- ==== Sys2Proof/Config.lean ====
section
/-! DEFINITION. What a build fixes, and the values the spec leaves free: the parameters of spec/00_scope R6 with
the constraints of R7 and D10, the environment's oracle DEV (spec/10_state R32), the level of the wire where R113 says
`any`, and the register contents at hardware reset, which R40 leaves `any`. -/

namespace Sys2Proof

/-- The rows of the parameter table of R6 that have no fixed value, one field each, named as the table names them.
`c`, `g`, `h`, `i`, `j`, `fCpu`, `prescaler` and `regMap` are read by no rule (R6). The field defaults exist only so
that the type is inhabited; no definition of the model reads them. `IRQ_LATENCY = 0`, `HOST_GAP = 0`,
`STATE_WIDTH = 8` and the pull-up are fixed by R6 and stand in the definitions that use them.
DESIGN CHOICE (log 6). -/
structure Params where
  /-- `W` (TIMER_WIDTH): the width in bits of `CNT` and `CMP`. -/
  w : Nat := 1
  /-- `A`: ticks the line is driven low at the start of a slot. -/
  a : Nat := 1
  /-- `B`: ticks from release to the end of a write-one slot. -/
  b : Nat := 1
  /-- `D`: ticks from release to the end of a write-zero slot. -/
  d : Nat := 1
  /-- `E`: ticks from release to the sample point of a read slot. -/
  e : Nat := 1
  /-- `F`: ticks from the sample point to the end of a read slot. -/
  f : Nat := 1
  /-- `W0_LOW`: the initial compare delay programmed by ARM_W0; R6 gives it the value `A` and asks for a field. -/
  w0Low : Nat := 1
  /-- `INIT_RUN`: what INIT leaves in `T_RUN`. -/
  initRun : Bool := false
  /-- `C`: used by no rule, bounded like the delays (D10). -/
  c : Nat := 1
  /-- `G`, `H`, `I`, `J`: the constants of the reset sequence the core does not have (R295), not bounded.
  DESIGN CHOICE (log 21). -/
  g : Nat := 1
  h : Nat := 1
  i : Nat := 1
  j : Nat := 1
  /-- `F_CPU`, in Hz. -/
  fCpu : Nat := 1
  /-- `PRESCALER`: CPU clocks per tick. -/
  prescaler : Nat := 1
  /-- `REG_MAP`: (register name, address) pairs, read by no rule (R69). -/
  regMap : List (String × Nat) := []
deriving DecidableEq, Repr, Inhabited

/-- A delay constant that can be programmed: `1 <= x <= 2^W - 1` (R7). -/
abbrev DelayFits (w n : Nat) : Prop := 1 ≤ n ∧ n ≤ 2 ^ w - 1

/-- The constraints on a configuration of R7 and of decision D10 of 92_eei_decisions, which R7 and R290 cite and which
bounds `C` too (`INIT_RUN` is 0 or 1 by its type). `G`, `H`, `I` and `J` are not bounded: DESIGN CHOICE (log 21). -/
abbrev Params.Valid (p : Params) : Prop :=
  1 ≤ p.w ∧ DelayFits p.w p.a ∧ DelayFits p.w p.b ∧ DelayFits p.w p.c ∧ DelayFits p.w p.d ∧ DelayFits p.w p.e ∧
    DelayFits p.w p.f ∧ DelayFits p.w p.w0Low

/-- A configuration the model has an instance for: parameters together with the proof that the constraints of R7 and D10 hold
of them, so that an invalid configuration cannot be built (R7, R290, R302; 93 U6). -/
structure Config extends Params where
  ok : toParams.Valid := by decide
deriving DecidableEq, Repr, Inhabited

/-- The check made before any run: an invalid record is refused (R302, R290). -/
def Params.toConfig? (p : Params) : Option Config :=
  if h : p.Valid then some { toParams := p, ok := h } else none

/-- `TICK_US = PRESCALER * 10^6 / F_CPU`, the microseconds a tick lasts, where that is a positive integer (R6, R7, R138). -/
def Params.tickUs? (p : Params) : Option Nat :=
  if p.fCpu ≠ 0 ∧ p.prescaler * 1000000 % p.fCpu = 0 ∧ 0 < p.prescaler * 1000000 / p.fCpu then
    some (p.prescaler * 1000000 / p.fCpu)
  else none

/-- The real duration of `n` ticks in microseconds (R300). -/
def Params.micros? (p : Params) (n : Nat) : Option Nat := p.tickUs?.map (n * ·)

/-- The configuration of the build, left open by R6: nothing is known of it but R7 and D10. DESIGN CHOICE (log 6). -/
opaque Config.openBuild : Config

/-- The configuration of the machine at reset: the open one, with `W0_LOW = A` as R6 fixes it. -/
def Config.reset : Config :=
  { toParams := { Config.openBuild.toParams with w0Low := Config.openBuild.a }
    ok := by
      obtain ⟨hw, ha, hb, hc, hd, he, hf, _⟩ := Config.openBuild.ok
      exact ⟨hw, ha, hb, hc, hd, he, hf, ha⟩ }

/-- The environment's choice `DEV(k)` for interval `k`: true when some device pulls the line low. A free function of
`k` under no law (R5, R32). FREE VALUE (log 7). -/
opaque Config.dev : Nat → Bool

/-- The level of the wire in interval `k` where R113 says `any`. FREE VALUE (log 8). -/
opaque Config.anyLine : Nat → Bool

/-- The contents of the real registers at hardware reset, each `any` (R40). -/
structure PowerOn where
  state : Byte
  sampled : Bool
  cnt : Nat
  cmp : Nat
  tRun : Bool
  tPeriodic : Bool
  ie : Bool
  ip : Bool
  dir : Bool
  out : Bool
deriving DecidableEq, Repr, Inhabited

/-- What the real registers hold at hardware reset: nothing is known of it (R40: a model draws each freely).
DESIGN CHOICE (log 4). -/
opaque Config.powerOn : PowerOn

end Sys2Proof
end

