-- ==== Sys2Proof/Syntax.lean ====
section
/-! DEFINITION. The instructions of the core: the 13 host commands of format CMD16 and the 8 sequencer micro-steps of
format TAG8, one constructor per row of spec/opcode_table.json (spec/30_encoding R83, R84); and the state tag as an
enumeration with its structured reading (spec/10_state R21, R22). -/

namespace Sys2Proof

/-- One constructor per row of the opcode table. Operands: WRITE_BIT carries one bit, WRITE_BYTE one byte (R82). -/
inductive Instr where
  /-- NOP (R232) -/
  | nop
  /-- INIT (R230) -/
  | init
  /-- START (R210) -/
  | start
  /-- ARM_W0 (R181) -/
  | armW0
  /-- ARM_W1 (R182) -/
  | armW1
  /-- ARM_RD (R183) -/
  | armRd
  /-- RD_STATE (R184) -/
  | rdState
  /-- RD_SAMPLE (R185) -/
  | rdSample
  /-- WAIT_IDLE (R186) -/
  | waitIdle
  /-- WRITE_BIT v (R187) -/
  | writeBit (v : Bool)
  /-- READ_BIT (R188) -/
  | readBit
  /-- WRITE_BYTE b (R211) -/
  | writeByte (b : Byte)
  /-- READ_BYTE (R212) -/
  | readByte
  /-- H_IDLE (R151) -/
  | hIdle
  /-- H_W0_LOW (R152) -/
  | hW0Low
  /-- H_W0_REL (R153) -/
  | hW0Rel
  /-- H_W1_LOW (R154) -/
  | hW1Low
  /-- H_W1_REL (R155) -/
  | hW1Rel
  /-- H_RD_LOW (R156) -/
  | hRdLow
  /-- H_RD_SAMPLE (R157) -/
  | hRdSample
  /-- H_RD_REL (R158) -/
  | hRdRel
deriving DecidableEq, Repr

/-- True of the host's commands, false of the sequencer's micro-steps (R80). -/
def Instr.isCommand : Instr → Bool
  | .nop | .init | .start | .armW0 | .armW1 | .armRd | .rdState | .rdSample | .waitIdle => true
  | .writeBit _ | .readBit | .writeByte _ | .readByte => true
  | .hIdle | .hW0Low | .hW0Rel | .hW1Low | .hW1Rel | .hRdLow | .hRdSample | .hRdRel => false

/-- The eight legal state tags, by the names of R84. -/
inductive Tag where
  | idle | write0Low | write0Release | write1Low | write1Release | readLow | readSample | readRelease
deriving DecidableEq, Repr

/-- The phases of a write operation (R21). -/
inductive WritePhase where
  | low | releasing
deriving DecidableEq, Repr

/-- The phases of a read operation (R21). -/
inductive ReadPhase where
  | low | sampling | releasing
deriving DecidableEq, Repr

/-- The source's Operation State as a tagged variant with a phase (R21, R22). -/
inductive Variant where
  | idle
  | writingZero (phase : WritePhase)
  | writingOne (phase : WritePhase)
  | reading (phase : ReadPhase)
deriving DecidableEq, Repr

end Sys2Proof
end

