-- ==== Sys2Proof/Machine/State.lean ====
section
/-! DEFINITION. The state of the machine as plain data: the twelve registers of the core (spec/10_state R20), the host's
and the environment's part that the core's steps read, the tick boundary; the reasons a step can stop; the state after
hardware reset (R40, spec/70_reset_and_hazards R280). -/

namespace Sys2Proof.Machine

/-- The five faults of the spec (spec/60_exceptions R241). They are recorded in `FAULT` by a NEXT state (log 9). -/
inductive FaultCode where
  /-- code 1, F_ILLEGAL_COMMAND (R242) -/
  | illegalCommand
  /-- code 2, F_USE_BEFORE_INIT (R243) -/
  | useBeforeInit
  /-- code 3, F_REENTRY (R244) -/
  | reentry
  /-- code 4, F_INIT_INFLIGHT (R245) -/
  | initInflight
  /-- code 5, F_BAD_STATE (R246) -/
  | badState
deriving DecidableEq, Repr

/-- One entry of the host's program: a command word to issue, or `pass`, the host's decision to issue nothing more at
the present boundary (R10: zero or more commands at each boundary, in program order; R232: to let time pass a host
issues no command). -/
inductive HostItem where
  | word (w : CmdWord)
  | pass
deriving DecidableEq, Repr

/-- Where the host stands inside a composite command, with the temporaries `SH`, `ACC` and `N` of R35 that exist only
there (R37: the position is the counter together with the primitive being executed). -/
inductive HostAct where
  /-- no composite command in progress: the host takes its next command from `port` -/
  | idle
  /-- in WAIT_IDLE (R186) -/
  | waitIdle
  /-- in the WAIT_IDLE of WRITE_BIT (R187) -/
  | writeBit
  /-- in the WAIT_IDLE of READ_BIT (R188) -/
  | readBit
  /-- in WRITE_BYTE: about to arm slot `n` with bit `sh[0]` (R211) -/
  | writeByteArm (sh : Byte) (n : Nat)
  /-- in WRITE_BYTE: waiting for slot `n` to end (R211) -/
  | writeByteWait (sh : Byte) (n : Nat)
  /-- in READ_BYTE: about to arm slot `n` (R212) -/
  | readByteArm (acc : Byte) (n : Nat)
  /-- in READ_BYTE: waiting for slot `n` to end (R212) -/
  | readByteWait (acc : Byte) (n : Nat)
deriving DecidableEq, Repr

/-- The state of the machine. The first twelve fields are the registers of R20, the complete state of the core. -/
structure State where
  /-- `STATE`, 8 bits (R21) -/
  state : Byte
  /-- `SAMPLED` (R24) -/
  sampled : Bool
  /-- `CNT`, an unsigned W-bit value (R25; log 12) -/
  cnt : Nat
  /-- `CMP`, an unsigned W-bit value (R26; log 12) -/
  cmp : Nat
  /-- `T_RUN` (R27) -/
  tRun : Bool
  /-- `T_PERIODIC` (R27) -/
  tPeriodic : Bool
  /-- `IE` (R28) -/
  ie : Bool
  /-- `IP` (R29) -/
  ip : Bool
  /-- `DIR`: true is output (R30) -/
  dir : Bool
  /-- `OUT` (R31) -/
  out : Bool
  /-- `INITED`, ghost (R33) -/
  inited : Bool
  /-- `FAULT`, ghost: 0, or the code of the first fault (R34) -/
  fault : FaultBits
  /-- the host: where it stands inside a composite command (R35, R37) -/
  act : HostAct
  /-- the host: the words it has still to issue (R10, R88; log 2) -/
  port : List HostItem
  /-- the response `RSP` of the latest command, `none` where it returned nothing (R90; log 20) -/
  rsp : Option Byte
  /-- the number of the present tick boundary (R10) -/
  k : Nat
  /-- the model's own: the `info` of the recorded fault (R241; log 10) -/
  diag : Option (BitVec 16)
  /-- the model's own: the part of the oracle `DEV` this state carries, (interval, true when a device pulls low);
  written by no step (R32; log 7) -/
  env : List (Nat × Bool)
  /-- the model's own: the parameters of the build; written by no step (R6, R39; log 6) -/
  cfg : Config
deriving DecidableEq, Repr

/-- Why a step stops. -/
inductive Fault where
  /-- Raised by the passing of a tick boundary when TICK is enabled with `T_PERIODIC = 0`: a mode no rule gives a
  behaviour (spec/93 U21; R130). Unreachable after INIT (R42 I4). Safe: the machine stops where the spec says nothing
  (log 11). -/
  | timerNotPeriodic
deriving DecidableEq, Repr

/-- Why a step has no meaning. -/
inductive Refusal where
  /-- Raised by `exec`'s arm of an instruction that has no meaning yet. Safe. No arm of this model raises it. -/
  | notModelled (mnemonic : String)
deriving DecidableEq, Repr

/-- The machine right after hardware reset: `INITED = 0`, `FAULT = 0`, every real register free (R40, R280; log 4); the
host has issued nothing and stands at boundary 0 (log 5); parameters and environment are open (log 6, log 7). -/
def State.reset : State :=
  { state := Config.powerOn.state
    sampled := Config.powerOn.sampled
    cnt := Config.powerOn.cnt % 2 ^ Config.reset.w
    cmp := Config.powerOn.cmp % 2 ^ Config.reset.w
    tRun := Config.powerOn.tRun
    tPeriodic := Config.powerOn.tPeriodic
    ie := Config.powerOn.ie
    ip := Config.powerOn.ip
    dir := Config.powerOn.dir
    out := Config.powerOn.out
    inited := false
    fault := 0
    act := .idle
    port := []
    rsp := none
    k := 0
    diag := none
    env := []
    cfg := Config.reset }

end Sys2Proof.Machine
end

