-- ==== Sys2Proof/Machine/Flags.lean ====
section
/-! DEFINITION. The core has no arithmetic flags (spec/10_state R38); its one flag-like bit is `IP`, the pending
compare-match event (R29, spec/60_exceptions R250). Here are its setting and its clearing, and the enabling conditions
of the two agents that look at flags: TICK (spec/41_timer R130, R136) and SERVICE (spec/42_sequencer R150). -/

namespace Sys2Proof.Machine

/-- A compare-match event is recorded: `IP <- 1`; a pending one stays pending (R131, R250). -/
def State.setPending (s : State) : State := { s with ip := true }

/-- `IP <- 0`, SERVICE's first action (R150, R250). -/
def State.clearPending (s : State) : State := { s with ip := false }

/-- The enabling condition of TICK (R130, R136). -/
def State.tickEnabled (s : State) : Bool := s.inited && s.fault == 0 && s.tRun

/-- The enabling condition of SERVICE (R150). -/
def State.serviceEnabled (s : State) : Bool := s.inited && s.fault == 0 && s.ip && s.ie

end Sys2Proof.Machine
end

