-- ==== Sys2Proof/WellFormed.lean ====
section
/-! DEFINITION. What is well formed before anything runs: a command word as its three fields, by the list of reserved
words of spec/30_encoding R85 (written from R85 and not from the opcode map, so that the two can be compared), a state
tag (R86), an instruction's operands (R82), and a configuration (spec/00_scope R7 and D10, in Config.lean). -/

namespace Sys2Proof

/-- The three fields of a command word (R81). -/
structure CmdFields where
  op : BitVec 4
  z : BitVec 4
  imm : BitVec 8
deriving DecidableEq, Repr

/-- `op` is word[15:12], `z` word[11:8], `imm` word[7:0] (R81). -/
def CmdFields.ofWord (w : CmdWord) : CmdFields :=
  { op := w.extractLsb' 12 4, z := w.extractLsb' 8 4, imm := w.extractLsb' 0 8 }

/-- Check 1 of R85: the opcode is not one of 0x7, 0xC, 0xD, 0xE, 0xF. -/
def CmdFields.opDefined (c : CmdFields) : Bool :=
  !(c.op == 0x7 || c.op == 0xC || c.op == 0xD || c.op == 0xE || c.op == 0xF)

/-- Check 2 of R85: `z` is 0. -/
def CmdFields.zZero (c : CmdFields) : Bool := c.z == 0

/-- Check 3 of R85: the commands without an operand carry `imm = 0x00`. -/
def CmdFields.immAbsent (c : CmdFields) : Bool :=
  !((c.op == 0x0 || c.op == 0x1 || c.op == 0x2 || c.op == 0x4 || c.op == 0x5 || c.op == 0x6 || c.op == 0x9 || c.op == 0xB) &&
    c.imm != 0)

/-- Check 4 of R85: the sub-opcode of the arming commands is below 0x03. -/
def CmdFields.kindDefined (c : CmdFields) : Bool := !(c.op == 0x3 && decide (0x03 ≤ c.imm.toNat))

/-- Check 5 of R85: the operand of WRITE_BIT is below 0x02. -/
def CmdFields.bitOperand (c : CmdFields) : Bool := !(c.op == 0x8 && decide (0x02 ≤ c.imm.toNat))

/-- A command word is well formed when none of the cases of R85 holds; every other word is reserved. -/
def CmdFields.wellFormed (c : CmdFields) : Bool :=
  c.opDefined && c.zZero && c.immAbsent && c.kindDefined && c.bitOperand

/-- A tag is legal when it is one of 0x00 to 0x07 (R84, R86). -/
def tagLegal (t : Byte) : Bool := decide (t.toNat < 8)

/-- An instruction is well formed when its operands fit their fields: one bit for WRITE_BIT, eight for WRITE_BYTE
(R82). The types of the constructors already say so: every term of `Instr` is well formed (`Instr.wellFormed_all`), and
what can be ill formed is a word, a tag or a parameter record. -/
def Instr.wellFormed : Instr → Bool
  | .writeBit v => decide (v.toNat < 2)
  | .writeByte b => decide (b.toNat < 256)
  | .nop | .init | .start | .armW0 | .armW1 | .armRd | .rdState | .rdSample | .waitIdle | .readBit | .readByte => true
  | .hIdle | .hW0Low | .hW0Rel | .hW1Low | .hW1Rel | .hRdLow | .hRdSample | .hRdRel => true

theorem Instr.wellFormed_all (i : Instr) : i.wellFormed = true := by
  cases i with
  | writeBit v => cases v <;> rfl
  | writeByte b => exact decide_eq_true b.isLt
  | _ => rfl

end Sys2Proof
end

