-- ==== Sys2Proof/Decode.lean ====
section
/-! DEFINITION. The decoder of command words and of state tags, total and rejecting by name, written from the opcode
map of spec/30_encoding R83 and the tag map of R84; the encoder, from the same maps; the tags' codes and their
structured reading (spec/10_state R22). -/

namespace Sys2Proof

/-- Why a word or a tag is no instruction (R85, R86). -/
inductive DecodeError where
  /-- `op` is 0x7 or 0xC to 0xF. -/
  | reservedOpcode
  /-- `z` is not 0. -/
  | nonzeroZ
  /-- a command without an operand has `imm` not 0. -/
  | nonzeroImm
  /-- the sub-opcode of an arming command is 3 or more. -/
  | reservedKind
  /-- `imm[7:1]` of WRITE_BIT is not 0. -/
  | operandNotABit
  /-- a state tag of 0x08 to 0xFF. -/
  | illegalTag
deriving DecidableEq, Repr

/-- One row of the opcode table: a word matches when `(word & mask) == match` (R83). `build` assembles the operands
(R82). -/
structure Row (n : Nat) where
  mnemonic : String
  pattern : BitVec n
  mask : BitVec n
  build : BitVec n → Instr

/-- `(word & mask) == match` (R83). -/
def Row.accepts {n : Nat} (r : Row n) (w : BitVec n) : Bool := w &&& r.mask == r.pattern

/-- `value = imm[0]` (R82 b). -/
def bitOperandOf (w : CmdWord) : Bool := w.getLsbD 0

/-- `byte = imm[7:0]` (R82 a). -/
def byteOperandOf (w : CmdWord) : Byte := w.extractLsb' 0 8

/-- The command opcode map, R83. -/
def commandRows : List (Row 16) :=
  [ ⟨"NOP", 0x0000, 0xFFFF, fun _ => .nop⟩,
    ⟨"INIT", 0x1000, 0xFFFF, fun _ => .init⟩,
    ⟨"START", 0x2000, 0xFFFF, fun _ => .start⟩,
    ⟨"ARM_W0", 0x3000, 0xFFFF, fun _ => .armW0⟩,
    ⟨"ARM_W1", 0x3001, 0xFFFF, fun _ => .armW1⟩,
    ⟨"ARM_RD", 0x3002, 0xFFFF, fun _ => .armRd⟩,
    ⟨"RD_STATE", 0x4000, 0xFFFF, fun _ => .rdState⟩,
    ⟨"RD_SAMPLE", 0x5000, 0xFFFF, fun _ => .rdSample⟩,
    ⟨"WAIT_IDLE", 0x6000, 0xFFFF, fun _ => .waitIdle⟩,
    ⟨"WRITE_BIT", 0x8000, 0xFFFE, fun w => .writeBit (bitOperandOf w)⟩,
    ⟨"READ_BIT", 0x9000, 0xFFFF, fun _ => .readBit⟩,
    ⟨"WRITE_BYTE", 0xA000, 0xFF00, fun w => .writeByte (byteOperandOf w)⟩,
    ⟨"READ_BYTE", 0xB000, 0xFFFF, fun _ => .readByte⟩ ]

/-- The tag map, R84: the micro-step SERVICE performs for each legal tag. -/
def tagRows : List (Row 8) :=
  [ ⟨"H_IDLE", 0x00, 0xFF, fun _ => .hIdle⟩,
    ⟨"H_W0_LOW", 0x01, 0xFF, fun _ => .hW0Low⟩,
    ⟨"H_W0_REL", 0x02, 0xFF, fun _ => .hW0Rel⟩,
    ⟨"H_W1_LOW", 0x03, 0xFF, fun _ => .hW1Low⟩,
    ⟨"H_W1_REL", 0x04, 0xFF, fun _ => .hW1Rel⟩,
    ⟨"H_RD_LOW", 0x05, 0xFF, fun _ => .hRdLow⟩,
    ⟨"H_RD_SAMPLE", 0x06, 0xFF, fun _ => .hRdSample⟩,
    ⟨"H_RD_REL", 0x07, 0xFF, fun _ => .hRdRel⟩ ]

/-- The first row that accepts the word, with its operands assembled. -/
def lookupRow {n : Nat} (rows : List (Row n)) (w : BitVec n) : Option Instr :=
  (rows.find? (·.accepts w)).map (·.build w)

/-- The name under which a word no row accepts is rejected (R85). -/
def reservedReason (w : CmdWord) : DecodeError :=
  let c := CmdFields.ofWord w
  if !c.opDefined then .reservedOpcode
  else if !c.zZero then .nonzeroZ
  else if !c.kindDefined then .reservedKind
  else if !c.bitOperand then .operandNotABit
  else .nonzeroImm

/-- Decoding of a command word, total (R91 step 2). -/
def decodeCommand (w : CmdWord) : Except DecodeError Instr :=
  match lookupRow commandRows w with
  | some i => .ok i
  | none => .error (reservedReason w)

/-- The micro-step a tag selects (R84, R150). -/
def decodeTag (t : Byte) : Except DecodeError Instr :=
  match lookupRow tagRows t with
  | some i => .ok i
  | none => .error .illegalTag

/-- An encoded instruction: a command word or a state tag (R80). -/
inductive Encoded where
  | cmd (w : CmdWord)
  | tag (t : Byte)
deriving DecidableEq, Repr

/-- The decoder on either kind of encoded object. -/
def decode : Encoded → Except DecodeError Instr
  | .cmd w => decodeCommand w
  | .tag t => decodeTag t

/-- The words of the instructions, from the `op` and `imm` columns of R83 and the tags of R84. -/
def encode : Instr → Encoded
  | .nop => .cmd 0x0000
  | .init => .cmd 0x1000
  | .start => .cmd 0x2000
  | .armW0 => .cmd 0x3000
  | .armW1 => .cmd 0x3001
  | .armRd => .cmd 0x3002
  | .rdState => .cmd 0x4000
  | .rdSample => .cmd 0x5000
  | .waitIdle => .cmd 0x6000
  | .writeBit v => .cmd (0x8000 ||| (BitVec.ofBool v).setWidth 16)
  | .readBit => .cmd 0x9000
  | .writeByte b => .cmd (0xA000 ||| b.setWidth 16)
  | .readByte => .cmd 0xB000
  | .hIdle => .tag 0x00
  | .hW0Low => .tag 0x01
  | .hW0Rel => .tag 0x02
  | .hW1Low => .tag 0x03
  | .hW1Rel => .tag 0x04
  | .hRdLow => .tag 0x05
  | .hRdSample => .tag 0x06
  | .hRdRel => .tag 0x07

/-- The command word of a command; a micro-step has none and yields its tag with zeros above (diagnostics, R241). -/
def wordOf (i : Instr) : CmdWord :=
  match encode i with
  | .cmd w => w
  | .tag t => t.setWidth 16

/-- The instruction the decoder reads from `nbits` bits `w`: 16 bits are a command word, 8 bits a state tag (R80). -/
def decodeTableWord (nbits w : Nat) : Option Instr :=
  if nbits = 8 then (decodeTag (BitVec.ofNat 8 w)).toOption
  else if nbits = 16 then (decodeCommand (BitVec.ofNat 16 w)).toOption
  else none

/-- The numeric value of a tag (R84). -/
def Tag.code : Tag → Byte
  | .idle => 0x00
  | .write0Low => 0x01
  | .write0Release => 0x02
  | .write1Low => 0x03
  | .write1Release => 0x04
  | .readLow => 0x05
  | .readSample => 0x06
  | .readRelease => 0x07

/-- The tag a legal value of `STATE` holds (R84); the values 0x08 to 0xFF hold none (R86). -/
def Tag.ofCode? (t : Byte) : Option Tag :=
  [Tag.idle, .write0Low, .write0Release, .write1Low, .write1Release, .readLow, .readSample, .readRelease].find? (·.code == t)

/-- The structured reading of a tag (R22). -/
def Tag.variant : Tag → Variant
  | .idle => .idle
  | .write0Low => .writingZero .low
  | .write0Release => .writingZero .releasing
  | .write1Low => .writingOne .low
  | .write1Release => .writingOne .releasing
  | .readLow => .reading .low
  | .readSample => .reading .sampling
  | .readRelease => .reading .releasing

end Sys2Proof
end

