-- ==== Sys2Proof/Machine/Operands.lean ====
section
/-! DEFINITION. Operand assembly and the byte temporaries: the kind of a bit slot with its sub-opcode, armed tag and
initial delay (spec/30_encoding R82 c, spec/43_bit_operations R181-R183), the bit a WRITE_BYTE sends next, the shift of
`SH`, the insertion into `ACC` (spec/44_byte_operations R211, R212), the response of a bit (R90). -/

namespace Sys2Proof.Machine

/-- The three bit slots an arming command starts. -/
inductive Slot where
  | writeZero | writeOne | read
deriving DecidableEq, Repr

/-- `kind = imm[7:0]` of the arming commands (R82 c). -/
def Slot.kind : Slot → Byte
  | .writeZero => 0
  | .writeOne => 1
  | .read => 2

/-- The armed tag, `2*kind + 1` (R82 c, R84): WRITE0_LOW, WRITE1_LOW, READ_LOW. -/
def Slot.tag (sl : Slot) : Byte := 2 * sl.kind + 1

/-- The initial compare delay the arming command programs: `W0_LOW` for a zero (R181), `A` otherwise (R182, R183). -/
def Slot.delay (c : Config) : Slot → Nat
  | .writeZero => c.w0Low
  | .writeOne => c.a
  | .read => c.a

/-- The primitive command that arms the slot (R83). -/
def Slot.command : Slot → Instr
  | .writeZero => .armW0
  | .writeOne => .armW1
  | .read => .armRd

/-- The slot of `write_bit(value)`: 1 selects WritingOne, 0 WritingZero (R82 b, R187). -/
def slotOfBit (v : Bool) : Slot := if v then .writeOne else .writeZero

/-- `SH[0]`, the bit WRITE_BYTE sends next: least significant first (R211, R66). -/
def nextBit (sh : Byte) : Bool := sh.getLsbD 0

/-- `SH <- SH >> 1`, logical (R211, R8). -/
def shiftOut (sh : Byte) : Byte := sh >>> 1

/-- `ACC <- ACC >> 1; if r == 1 then ACC <- ACC | 0x80` (R212). -/
def accInsert (acc : Byte) (r : Bool) : Byte := if r then (acc >>> 1) ||| 0x80 else acc >>> 1

/-- `zext_8` of a bit: 0x00 or 0x01 (R90, R8). -/
def zext8 (b : Bool) : Byte := if b then 0x01 else 0x00

end Sys2Proof.Machine
end

