-- ==== Sys2Proof/Machine/Ops.lean ====
section
/-! DEFINITION. The named operations over the registers: recording a fault and the decoder's checks (spec/60_exceptions
R241, spec/30_encoding R91), the pin driver (spec/40_pin_driver), the timer (spec/41_timer), the wire, taking the
compare-match interrupt and returning from it (spec/60_exceptions R253, R254), arming a bit slot
(spec/43_bit_operations R180), the host's poll (R184, R186). -/

namespace Sys2Proof.Machine

/-! ### Faults -/

/-- The code `FAULT` holds for a fault (R241). -/
def FaultCode.bits : FaultCode → FaultBits
  | .illegalCommand => 1
  | .useBeforeInit => 2
  | .reentry => 3
  | .initInflight => 4
  | .badState => 5

/-- `raise <code>(info)`: `if FAULT = 0 then FAULT <- code`, and nothing else is written (R241); the model keeps `info`
in `diag` (log 10). -/
def State.raise (s : State) (c : FaultCode) (info : BitVec 16) : State :=
  if s.fault = 0 then { s with fault := c.bits, diag := some info } else s

/-- Step 1 of the decoding procedure: while a fault is recorded a command is refused without effect (R91, R248). -/
def State.unlessFaulted (s : State) (body : State → State) : State :=
  if s.fault = 0 then body s else s

/-- Steps 1, 3 and 4 of the decoding procedure for a command other than NOP and INIT, whose word is `w` (R91, R243). -/
def State.command (s : State) (w : CmdWord) (body : State → State) : State :=
  s.unlessFaulted fun s => if s.inited then body s else s.raise .useBeforeInit w

/-! ### The pin driver -/

/-- PIN_CONFIG: `DIR <- 0; OUT <- 0` (R110). -/
def State.pinConfig (s : State) : State := { s with dir := false, out := false }

/-- PIN_ASSERT_LOW: `DIR <- 1` (R111). -/
def State.pinAssertLow (s : State) : State := { s with dir := true }

/-- PIN_RELEASE: `DIR <- 0` (R112). -/
def State.pinRelease (s : State) : State := { s with dir := false }

/-- `DEV(j)`: true when some device pulls the line low in interval `j` (R32). What the state's `env` says of `j`, else
the free oracle (log 7). -/
def State.devAt (s : State) (j : Nat) : Bool := (s.env.lookup j).getD (Config.dev j)

/-- `LINE(k)` for the present interval, from the registers as they stand (R113): true is high. It is the level of
interval `k` when no agent has a further step at boundary `k`. Where R113 says `any` the level is free (log 8). -/
def State.line (s : State) : Bool :=
  if !s.inited then Config.anyLine s.k
  else if s.fault ≠ 0 then Config.anyLine s.k
  else
    match s.dir, s.out, s.devAt s.k with
    | true, false, _ => false
    | false, _, true => false
    | false, _, false => true
    | true, true, false => true
    | true, true, true => Config.anyLine s.k

/-- PIN_SAMPLE: the level of the interval that begins at this boundary, with `DIR` and `OUT` as they are at this point
of the step (R114). -/
def State.pinSample (s : State) : Bool := s.line

/-! ### The timer -/

/-- TMR_RESET: `CNT <- 0` (R132). -/
def State.tmrReset (s : State) : State := { s with cnt := 0 }

/-- TMR_SET_COMPARE(n): `CMP <- n` (R133). -/
def State.tmrSetCompare (s : State) (n : Nat) : State := { s with cmp := n }

/-- TMR_START: `T_RUN <- 1` (R134). -/
def State.tmrStart (s : State) : State := { s with tRun := true }

/-- TMR_CONFIG: `T_PERIODIC <- 1; IE <- 1; T_RUN <- INIT_RUN` (R135). -/
def State.tmrConfig (s : State) : State := { s with tPeriodic := true, ie := true, tRun := s.cfg.initRun }

/-- The incremented counter, modulo `2^W` (R130, R137). -/
def State.nextCount (s : State) : Nat := (s.cnt + 1) % 2 ^ s.cfg.w

/-- TICK: increment, compare for equality with `CMP` as it is now, on a match record the event and clear the counter
(R130). -/
def State.tick (s : State) : State :=
  if s.nextCount = s.cmp then ({ s with cnt := 0 } : State).setPending else { s with cnt := s.nextCount }

/-! ### The interrupt -/

/-- Taking the compare-match interrupt: clear `IP`; nothing is saved and nothing switched, and the micro-step the tag
selects runs on the state this leaves (R150, R253). -/
def State.takeInterrupt (s : State) : State := s.clearPending

/-- The return from the interrupt: SERVICE ends, nothing is to restore (R254). -/
def State.endInterrupt (s : State) : State := s

/-- H_ILLEGAL: SERVICE found a tag of 0x08 to 0xFF. `IP` is cleared and F_BAD_STATE recorded (R159, R246). -/
def State.badTag (s : State) : State := s.takeInterrupt.raise .badState (s.state.setWidth 16)

/-! ### The sequencer's and the host's writes of STATE -/

/-- `STATE <- tag` (R9). -/
def State.goto (s : State) (t : Tag) : State := { s with state := t.code }

/-- True when the tag is IDLE, `STATE = 0x00`. -/
def State.isIdle (s : State) : Bool := s.state == Tag.idle.code

/-- The four writes of an arming command, in the source's order: counter, compare, state, pin (R180). -/
def State.armWrites (s : State) (sl : Slot) : State :=
  let s := s.tmrReset
  let s := s.tmrSetCompare (sl.delay s.cfg)
  let s : State := { s with state := sl.tag }
  s.pinAssertLow

/-- ARM(n, t): F_REENTRY unless `STATE = 0x00`, else the four writes, after which the host goes on as `next` says
(R180, R244). A primitive arming command goes on with `idle`, a composite with its wait. -/
def State.arm (s : State) (sl : Slot) (next : HostAct) : State :=
  if s.isIdle then { s.armWrites sl with act := next }
  else { s.raise .reentry (s.state.setWidth 16) with act := .idle }

/-- One poll of a WAIT_IDLE: RD_STATE executes and returns 0x00 (R184, R186). While a fault is recorded the poll is
refused and the wait never completes. -/
def State.pollFindsIdle (s : State) : Bool := s.inited && s.fault == 0 && s.isIdle

/-- A command returns a value on `RSP` (R90). -/
def State.respond (s : State) (r : Byte) : State := { s with rsp := some r }

end Sys2Proof.Machine
end

