-- ==== Sys2Proof/Machine/BitLevel.lean ====
section
/-! DEFINITION. The meanings of the bit-level commands (spec/43_bit_operations): arming, the two reads, WAIT_IDLE,
WRITE_BIT, READ_BIT. A composite's meaning is its first primitive; the host's place in the rest of the expansion (R89)
is kept in `act` and taken up by Machine/HostSide.lean, one primitive at a time, because SERVICE and the passing of
boundaries come between them (R253; log 3). -/

namespace Sys2Proof.Machine

/-- ARM_W0: `ARM(W0_LOW, 0x01)` (R181). -/
def execArmW0 (s : State) : Host.Outcome State Fault Refusal :=
  .next (s.command (wordOf .armW0) fun s => s.arm .writeZero .idle)

/-- ARM_W1: `ARM(A, 0x03)` (R182). -/
def execArmW1 (s : State) : Host.Outcome State Fault Refusal :=
  .next (s.command (wordOf .armW1) fun s => s.arm .writeOne .idle)

/-- ARM_RD: `ARM(A, 0x05)` (R183). -/
def execArmRd (s : State) : Host.Outcome State Fault Refusal :=
  .next (s.command (wordOf .armRd) fun s => s.arm .read .idle)

/-- RD_STATE: `return STATE` (R184). -/
def execRdState (s : State) : Host.Outcome State Fault Refusal :=
  .next (s.command (wordOf .rdState) fun s => s.respond s.state)

/-- RD_SAMPLE: `return zext_8(SAMPLED)`, at any time (R185). -/
def execRdSample (s : State) : Host.Outcome State Fault Refusal :=
  .next (s.command (wordOf .rdSample) fun s => s.respond (zext8 s.sampled))

/-- WAIT_IDLE: its first poll; it completes at its own boundary if `STATE` is 0x00, else the host waits (R186). -/
def execWaitIdle (s : State) : Host.Outcome State Fault Refusal :=
  .next (s.command (wordOf .waitIdle) fun s => if s.isIdle then s else { s with act := .waitIdle })

/-- WRITE_BIT v: `if v == 1 then ARM_W1 else ARM_W0`, then WAIT_IDLE (R187). -/
def execWriteBit (v : Bool) (s : State) : Host.Outcome State Fault Refusal :=
  .next (s.command (wordOf (.writeBit v)) fun s => s.arm (slotOfBit v) .writeBit)

/-- READ_BIT: ARM_RD, then WAIT_IDLE, then RD_SAMPLE (R188). -/
def execReadBit (s : State) : Host.Outcome State Fault Refusal :=
  .next (s.command (wordOf .readBit) fun s => s.arm .read .readBit)

end Sys2Proof.Machine
end

