-- ==== Sys2Proof/Machine/ByteLevel.lean ====
section
/-! DEFINITION. The meanings of START, WRITE_BYTE and READ_BYTE (spec/44_byte_operations). The byte commands' meaning is
START with the temporaries set up; the eight slots are taken by Machine/HostSide.lean (R89; log 3). -/

namespace Sys2Proof.Machine

/-- START: TMR_START (R210). -/
def execStart (s : State) : Host.Outcome State Fault Refusal :=
  .next (s.command (wordOf .start) fun s => s.tmrStart)

/-- WRITE_BYTE b: START; `SH <- b`; the first slot is about to be armed (R211). -/
def execWriteByte (b : Byte) (s : State) : Host.Outcome State Fault Refusal :=
  .next (s.command (wordOf (.writeByte b)) fun s => { s.tmrStart with act := .writeByteArm b 0 })

/-- READ_BYTE: START; `ACC <- 0x00`; the first slot is about to be armed (R212). -/
def execReadByte (s : State) : Host.Outcome State Fault Refusal :=
  .next (s.command (wordOf .readByte) fun s => { s.tmrStart with act := .readByteArm 0x00 0 })

end Sys2Proof.Machine
end

