-- ==== Sys2Proof/Machine/Initialisation.lean ====
section
/-! DEFINITION. The meanings of NOP and INIT (spec/45_init). Each is legal before INIT and refused while a fault is
recorded. -/

namespace Sys2Proof.Machine

/-- NOP (R232): nothing. -/
def execNop (s : State) : Host.Outcome State Fault Refusal := .next (s.unlessFaulted id)

/-- The writes of INIT (R230): Idle, PIN_CONFIG, TMR_CONFIG, `INITED <- 1`. -/
def State.initWrites (s : State) : State :=
  let s := s.goto .idle
  let s := s.pinConfig
  let s := s.tmrConfig
  { s with inited := true }

/-- INIT (R230): F_INIT_INFLIGHT when an operation is in flight, else the writes. `STATE` is not examined while
`INITED = 0`. -/
def execInit (s : State) : Host.Outcome State Fault Refusal :=
  .next (s.unlessFaulted fun s =>
    if s.inited && !s.isIdle then s.raise .initInflight (s.state.setWidth 16) else s.initWrites)

end Sys2Proof.Machine
end

