-- ==== Sys2Proof/Machine/Sequencer.lean ====
section
/-! DEFINITION. The meanings of the eight micro-steps (spec/42_sequencer R151-R158), each on the state
`State.takeInterrupt` leaves: `IP` was cleared by SERVICE, whose enabling condition Machine/Fetch.lean checks (R150;
log 16). Actions stand in the table's column order: pin, compare, state (R160). -/

namespace Sys2Proof.Machine

/-- H_IDLE: nothing (R151). -/
def execHIdle (s : State) : Host.Outcome State Fault Refusal := .next s.endInterrupt

/-- H_W0_LOW: `DIR <- 0; CMP <- D; STATE <- 0x02` (R152). -/
def execHW0Low (s : State) : Host.Outcome State Fault Refusal :=
  .next ((s.pinRelease.tmrSetCompare s.cfg.d).goto .write0Release).endInterrupt

/-- H_W0_REL: `STATE <- 0x00` (R153). -/
def execHW0Rel (s : State) : Host.Outcome State Fault Refusal := .next (s.goto .idle).endInterrupt

/-- H_W1_LOW: `DIR <- 0; CMP <- B; STATE <- 0x04` (R154). -/
def execHW1Low (s : State) : Host.Outcome State Fault Refusal :=
  .next ((s.pinRelease.tmrSetCompare s.cfg.b).goto .write1Release).endInterrupt

/-- H_W1_REL: `STATE <- 0x00` (R155). -/
def execHW1Rel (s : State) : Host.Outcome State Fault Refusal := .next (s.goto .idle).endInterrupt

/-- H_RD_LOW: `DIR <- 0; CMP <- E; STATE <- 0x06` (R156). -/
def execHRdLow (s : State) : Host.Outcome State Fault Refusal :=
  .next ((s.pinRelease.tmrSetCompare s.cfg.e).goto .readSample).endInterrupt

/-- `SAMPLED <- LINE(k)` (R157, R114). -/
def State.sampleLine (s : State) : State := { s with sampled := s.pinSample }

/-- H_RD_SAMPLE: `SAMPLED <- LINE(k); CMP <- F; STATE <- 0x07` (R157). -/
def execHRdSample (s : State) : Host.Outcome State Fault Refusal :=
  .next ((s.sampleLine.tmrSetCompare s.cfg.f).goto .readRelease).endInterrupt

/-- H_RD_REL: `STATE <- 0x00` (R158). -/
def execHRdRel (s : State) : Host.Outcome State Fault Refusal := .next (s.goto .idle).endInterrupt

end Sys2Proof.Machine
end

