-- ==== Sys2Proof/Machine/Dispatch.lean ====
section
/-! DEFINITION. The meaning of every instruction: one arm per constructor of Instr, one direct call each. -/

namespace Sys2Proof.Machine

/-- What an instruction does to the state: commands on the state after their issue, micro-steps on the state after the
interrupt was taken. -/
def exec (i : Instr) (s : State) : Host.Outcome State Fault Refusal :=
  match i with
  | .nop => Sys2Proof.Machine.execNop s
  | .init => Sys2Proof.Machine.execInit s
  | .start => Sys2Proof.Machine.execStart s
  | .armW0 => Sys2Proof.Machine.execArmW0 s
  | .armW1 => Sys2Proof.Machine.execArmW1 s
  | .armRd => Sys2Proof.Machine.execArmRd s
  | .rdState => Sys2Proof.Machine.execRdState s
  | .rdSample => Sys2Proof.Machine.execRdSample s
  | .waitIdle => Sys2Proof.Machine.execWaitIdle s
  | .writeBit v => Sys2Proof.Machine.execWriteBit v s
  | .readBit => Sys2Proof.Machine.execReadBit s
  | .writeByte b => Sys2Proof.Machine.execWriteByte b s
  | .readByte => Sys2Proof.Machine.execReadByte s
  | .hIdle => Sys2Proof.Machine.execHIdle s
  | .hW0Low => Sys2Proof.Machine.execHW0Low s
  | .hW0Rel => Sys2Proof.Machine.execHW0Rel s
  | .hW1Low => Sys2Proof.Machine.execHW1Low s
  | .hW1Rel => Sys2Proof.Machine.execHW1Rel s
  | .hRdLow => Sys2Proof.Machine.execHRdLow s
  | .hRdSample => Sys2Proof.Machine.execHRdSample s
  | .hRdRel => Sys2Proof.Machine.execHRdRel s

end Sys2Proof.Machine
end

