-- ==== Sys2Proof/Machine/HostSide.lean ====
section
/-! DEFINITION. The host inside a composite command: the primitives after the first one, in the order of the expansions
of spec/30_encoding R89 (spec/43_bit_operations R186-R188, spec/44_byte_operations R211, R212). -/

namespace Sys2Proof.Machine

/-- The arming command of a byte command's next slot, with the decoder's checks (R91, R248). Where it faults or is
refused the composite ends with it (log 9). -/
def State.armSlot (s : State) (sl : Slot) (next : HostAct) : State :=
  ({ s with act := .idle } : State).command (wordOf sl.command) fun s => s.arm sl next

/-- WRITE_BYTE after slot `n` (0 to 7): `SH <- SH >> 1`, then the next slot, or the end after eight (R211). -/
def State.writeByteNext (s : State) (sh : Byte) (n : Nat) : State :=
  if n < 7 then { s with act := .writeByteArm (shiftOut sh) (n + 1) } else { s with act := .idle }

/-- READ_BYTE after slot `n` (0 to 7): RD_SAMPLE, insertion into `ACC`, then the next slot, or `return ACC` after eight (R212). -/
def State.readByteNext (s : State) (acc : Byte) (n : Nat) : State :=
  let acc' := accInsert acc s.sampled
  if n < 7 then { s with act := .readByteArm acc' (n + 1) }
  else ({ s with act := .idle } : State).respond acc'

/-- The next primitive of the composite the host is inside of, if it can be taken at this boundary; `none` when there is
no composite or its wait goes on (R186: the host issues no other command while `STATE` is not 0x00). A poll that finds
IDLE and the zero-tick primitives that follow it up to the next arming are one step (log 3). -/
def State.hostContinue (s : State) : Option State :=
  match s.act with
  | .idle => none
  | .waitIdle => if s.pollFindsIdle then some { s with act := .idle } else none
  | .writeBit => if s.pollFindsIdle then some { s with act := .idle } else none
  | .readBit => if s.pollFindsIdle then some (({ s with act := .idle } : State).respond (zext8 s.sampled)) else none
  | .writeByteArm sh n => some (s.armSlot (slotOfBit (nextBit sh)) (.writeByteWait sh n))
  | .writeByteWait sh n => if s.pollFindsIdle then some (s.writeByteNext sh n) else none
  | .readByteArm acc n => some (s.armSlot .read (.readByteWait acc n))
  | .readByteWait acc n => if s.pollFindsIdle then some (s.readByteNext acc n) else none

end Sys2Proof.Machine
end

