-- ==== Sys2Proof/Machine/Fetch.lean ====
section
/-! DEFINITION. Which agent moves next and what it does (spec/00_scope R10, spec/60_exceptions R251, R252): SERVICE
whenever it is enabled, else the host if it has something to do at this boundary, else the boundary passes and TICK is
taken if enabled. Fetching: the micro-step from the tag in `STATE` (spec/42_sequencer R150), the command from the host's
port (spec/30_encoding R91). The placing of a word where the next step fetches it. -/

namespace Sys2Proof.Machine

/-- The next tick boundary, with its TICK if that is enabled (R10, R130, R136). With the timer running in the
non-periodic mode, for which no rule gives a behaviour, the machine stops by name (93 U21; log 11). -/
def State.passBoundary (s : State) : Host.Outcome State Fault Refusal :=
  let s : State := { s with k := s.k + 1 }
  if s.tickEnabled then
    if s.tPeriodic then .next s.tick else .fault .timerNotPeriodic
  else .next s

/-- The host issues the first word of its port: the rest remains, the response of the previous command is gone (R10,
R90; log 2, log 20). -/
def State.issue (s : State) (rest : List HostItem) : State := { s with port := rest, rsp := none }

/-- What the next step is: an instruction to execute on a state, or a step that is no instruction of the table. -/
inductive Work where
  | run (i : Instr) (s : State)
  | done (o : Host.Outcome State Fault Refusal)

/-- SERVICE: the micro-step the tag selects on the state with `IP` cleared, H_ILLEGAL for an illegal tag (R150, R159). -/
def State.serviceWork (s : State) : Work :=
  match decodeTag s.state with
  | .ok i => .run i s.takeInterrupt
  | .error _ => .done (.next s.badTag)

/-- The issue of a command word: the command, or F_ILLEGAL_COMMAND for a reserved word (R91 step 2, R242). -/
def State.commandWork (s : State) (w : CmdWord) (rest : List HostItem) : Work :=
  match decodeCommand w with
  | .ok i => .run i (s.issue rest)
  | .error _ => .done (.next ((s.issue rest).raise .illegalCommand w))

/-- The host's turn: its composite command if it is inside one, else its next command (R10). -/
def State.hostWork (s : State) : Work :=
  match s.hostContinue with
  | some t => .done (.next t)
  | none =>
    if s.act = .idle then
      match s.port with
      | .word w :: rest => s.commandWork w rest
      | .pass :: rest => .done ({ s with port := rest } : State).passBoundary
      | [] => .done s.passBoundary
    else .done s.passBoundary

/-- The next step (R10). -/
def State.work (s : State) : Work := if s.serviceEnabled then s.serviceWork else s.hostWork

/-- `s` with a tag in `STATE` and a compare-match event about to be serviced: everything SERVICE needs (log 17). -/
def State.placeTag (s : State) (t : Byte) : State :=
  { s with state := t, ip := true, ie := true, inited := true, fault := 0 }

/-- `s` with a command word next on the host's port, the host free to issue it and no SERVICE before it (log 17). -/
def State.placeCommand (s : State) (w : CmdWord) : State :=
  { s with port := .word w :: s.port, act := .idle, ip := if s.serviceEnabled then false else s.ip }

end Sys2Proof.Machine
end

