-- ==== Sys2Proof/Machine/Step.lean ====
section
/-! DEFINITION. One step of the machine, one agent's step of spec/00_scope R10, and the placing of an instruction where
the next step fetches it. -/

namespace Sys2Proof.Machine

/-- One step: the instruction fetched, or the step that is no instruction (R10). -/
def step (s : State) : Host.Outcome State Fault Refusal :=
  match s.work with
  | .run i t => exec i t
  | .done o => o

/-- `s` with the instruction of `nbits` bits `w` where the next step fetches it: 8 bits are a state tag, 16 bits a
command word (log 17). -/
def State.withFetchWord (s : State) (nbits w : Nat) : State :=
  if nbits = 8 then s.placeTag (BitVec.ofNat 8 w) else s.placeCommand (BitVec.ofNat 16 w)

end Sys2Proof.Machine
end

