-- ==== Sys2Proof/Safety.lean ====
section
/-! DEFINITION. The terms claims are stated in: the invariants of spec/10_state R42, the conditions under which a bit slot
runs (spec/43_bit_operations R190, R191), a held host (spec/00_scope R11), what the outside can observe (R12), the length
of a slot in ticks (R190, spec/44_byte_operations R214). -/

namespace Sys2Proof.Machine

/-- No fault is recorded: the premise every claim about a successful run takes (R248). -/
abbrev State.NoFault (s : State) : Prop := s.fault = 0

/-- `STATE` is one of WRITE0_LOW, WRITE1_LOW, READ_LOW: a Low phase (R42 I3). -/
def State.inLowPhase (s : State) : Bool := s.state == 0x01 || s.state == 0x03 || s.state == 0x05

/-- What R42 says of every state after INIT with no fault recorded: a legal tag (I1), `OUT = 0` (I2), the master drives
exactly in the Low phase (I3), interrupt enabled and periodic mode (I4). -/
structure State.Live (s : State) : Prop where
  legalTag : s.state.toNat < 8
  outLow : s.out = false
  drivesInLowPhase : s.dir = s.inLowPhase
  enabled : s.ie = true
  periodic : s.tPeriodic = true

/-- The slot counter `N` of a byte command in progress is below 8 (R35). -/
def HostAct.slotInRange : HostAct → Bool
  | .writeByteArm _ n | .writeByteWait _ n | .readByteArm _ n | .readByteWait _ n => decide (n < 8)
  | .idle | .waitIdle | .writeBit | .readBit => true

/-- The invariant of the machine: `CNT` and `CMP` are W-bit values (R25, R26), `FAULT` holds 0 or a code of 1 to 5 (R34),
a byte command in progress is at one of its eight slots (R35), a composite command is in progress only after INIT (R91),
and R42 holds after INIT while no fault is recorded. -/
structure State.Inv (s : State) : Prop where
  cntFits : s.cnt < 2 ^ s.cfg.w
  cmpFits : s.cmp < 2 ^ s.cfg.w
  faultCode : s.fault.toNat ≤ 5
  slotInRange : s.act.slotInRange = true
  busyInited : s.act ≠ .idle → s.inited = true
  live : s.inited = true → s.NoFault → s.Live

/-- A compare match will be serviced: initialised, no fault, timer running in periodic mode, interrupt enabled (R191),
the pin's latch low (R42 I2). -/
structure State.Running (s : State) : Prop where
  inited : s.inited = true
  noFault : s.NoFault
  runs : s.tRun = true
  periodic : s.tPeriodic = true
  enabled : s.ie = true
  outLow : s.out = false

/-- The host may start a bit slot whose duration R190 gives: the machine runs, no event is pending (R42 I5), no
operation and no composite command is in progress. -/
structure State.SlotReady (s : State) : Prop extends s.Running where
  noPending : s.ip = false
  idleTag : s.state = 0x00
  hostIdle : s.act = .idle

/-- The host is inside the WAIT_IDLE of a composite command (R186). -/
def HostAct.waits : HostAct → Bool
  | .waitIdle | .writeBit | .readBit | .writeByteWait _ _ | .readByteWait _ _ => true
  | .idle | .writeByteArm _ _ | .readByteArm _ _ => false

/-- The host waits for Idle and no compare-match event will be serviced: the timer is stopped with no event pending, or the
interrupt is disabled (R191, R247). With the interrupt disabled and the timer running, the timer is in its periodic mode. -/
structure State.Unserviced (s : State) : Prop where
  inited : s.inited = true
  noFault : s.NoFault
  waits : s.act.waits = true
  inFlight : s.state ≠ 0x00
  noService : (s.tRun = false ∧ s.ip = false) ∨ (s.ie = false ∧ (s.tRun = true → s.tPeriodic = true))

/-- The host lets the present boundary go by: it is held in a wait, or it has no command to issue, or its program says
to issue no more at this boundary; `rest` is what its port then holds (R10, R11). -/
def State.HostPasses (s : State) (rest : List HostItem) : Prop :=
  s.hostContinue = none ∧
    ((s.act ≠ .idle ∧ rest = s.port) ∨ (s.port = [] ∧ rest = []) ∨ (s.act = .idle ∧ s.port = .pass :: rest))

/-- The host issues the command word `w` at the present boundary (R10). -/
def State.Issues (s : State) (w : CmdWord) (rest : List HostItem) : Prop :=
  s.serviceEnabled = false ∧ s.act = .idle ∧ s.port = .word w :: rest

/-- One SERVICE step takes `s` to `t` (R150). -/
def State.Serves (s t : State) : Prop := s.serviceEnabled = true ∧ step s = .next t

/-- The state after `n` steps, if the machine does not stop before. -/
def State.After (s : State) (n : Nat) (t : State) : Prop := Sys2Proof.core.run n s = .next t

/-- The ticks a write slot takes: `A + B` for a one, `W0_LOW + D` for a zero (R190). -/
def Config.writeTicks (c : Config) (v : Bool) : Nat := if v then c.a + c.b else c.w0Low + c.d

/-- The ticks a read slot takes: `A + E + F` (R190). -/
def Config.readTicks (c : Config) : Nat := c.a + c.e + c.f

/-- `ones(b)`: the number of 1 bits of a byte (R211, R214). -/
def onesOf (b : Byte) : Nat := (List.range 8).countP fun n => b.getLsbD n

/-- The ticks from the issue of a WRITE_BYTE to the end of its first `n` slots (R214). -/
def Config.byteTicks (c : Config) (b : Byte) : Nat → Nat
  | 0 => 0
  | n + 1 => Config.byteTicks c b n + Config.writeTicks c (b.getLsbD n)

/-- What the outside can observe at a boundary once its steps are taken (R12): the boundary's number, the wire, the
response, whether a composite command is still in progress, whether a fault was recorded. -/
structure Observation where
  k : Nat
  line : Bool
  rsp : Option Byte
  inComposite : Bool
  faulted : Bool
deriving DecidableEq, Repr

/-- The observables of a state (R12). -/
def State.observe (s : State) : Observation :=
  { k := s.k, line := s.line, rsp := s.rsp, inComposite := s.act != .idle, faulted := s.fault != 0 }

end Sys2Proof.Machine
end

