-- ==== Sys2Proof/Certificates/Slice0/Obligations.lean ====
section
/-! DEFINITION. The statements for the provers. Each docstring names the rules of spec/ it formalises. States are any
states, not only reachable ones. Beside the registers a state has fields that are the model's choice, and a clause that
speaks of one rests on its log entry: `act`, the host's place in a composite command (log 3); `port`, what the host has
still to issue, and `k`, the boundary's number (log 1, log 2); `rsp`, the response, gone at the next issue (log 20);
`diag`, the `info` of a fault (log 10); `env`, the environment's choices (log 7); `cfg`, the parameters (log 6). -/

open Sys2Proof Sys2Proof.Machine

/-! ### Encodings -/

/-- R83, R84: the decoder reads back every instruction from its word, for every value of every operand. -/
def Obligations.EveryInstructionDecodesFromItsWord : Prop :=
  ∀ i : Instr, decode (encode i) = .ok i

/-- R83, R84: a word or tag the decoder accepts is the word of the instruction it reads. -/
def Obligations.EveryAcceptedWordEncodesItsInstruction : Prop :=
  ∀ (e : Encoded) (i : Instr), decode e = .ok i → encode i = e

/-- R85: the words the decoder refuses are exactly those the rule lists. -/
def Obligations.ReservedWordsAreThoseListed : Prop :=
  ∀ w : CmdWord,
    ((∃ e, decodeCommand w = .error e) ↔
      (w.extractLsb' 12 4 = 0x7 ∨ w.extractLsb' 12 4 = 0xC ∨ w.extractLsb' 12 4 = 0xD ∨ w.extractLsb' 12 4 = 0xE ∨
        w.extractLsb' 12 4 = 0xF) ∨
      w.extractLsb' 8 4 ≠ 0x0 ∨
      ((w.extractLsb' 12 4 = 0x0 ∨ w.extractLsb' 12 4 = 0x1 ∨ w.extractLsb' 12 4 = 0x2 ∨ w.extractLsb' 12 4 = 0x4 ∨
        w.extractLsb' 12 4 = 0x5 ∨ w.extractLsb' 12 4 = 0x6 ∨ w.extractLsb' 12 4 = 0x9 ∨ w.extractLsb' 12 4 = 0xB) ∧
        w.extractLsb' 0 8 ≠ 0x00) ∨
      (w.extractLsb' 12 4 = 0x3 ∧ 0x03 ≤ (w.extractLsb' 0 8).toNat) ∨
      (w.extractLsb' 12 4 = 0x8 ∧ 0x02 ≤ (w.extractLsb' 0 8).toNat))

/-- R242, R91: issuing a reserved word records F_ILLEGAL_COMMAND (code 1), before INIT too, and writes no other
register. `diag` is the model's copy of the word (log 10), the response is gone as with every issue (log 20). -/
def Obligations.ReservedWordIsIllegalCommand : Prop :=
  ∀ (s : State) (w : CmdWord) (rest : List HostItem) (e : DecodeError),
    s.Issues w rest → s.NoFault → decodeCommand w = .error e →
      step s = .next { s with port := rest, rsp := none, fault := 1, diag := some w }

/-- R83: no word matches two rows of the opcode map, nor a tag two rows of the tag map. -/
def Obligations.OpcodeRowsAreDisjoint : Prop :=
  commandRows.Pairwise (fun r q => ∀ w, ¬(r.accepts w = true ∧ q.accepts w = true)) ∧
    tagRows.Pairwise (fun r q => ∀ t, ¬(r.accepts t = true ∧ q.accepts t = true))

/-- R83, R84: words written out from the encodings decode to the instructions they stand for. -/
def Obligations.WrittenOutWordsDecode : Prop :=
  decodeCommand 0b0001_0000_0000_0000 = .ok .init ∧ decodeCommand 0b0010_0000_0000_0000 = .ok .start ∧
    decodeCommand 0b0011_0000_0000_0010 = .ok .armRd ∧ decodeCommand 0b1000_0000_0000_0001 = .ok (.writeBit true) ∧
    decodeCommand 0b1010_0000_1011_0010 = .ok (.writeByte 0xB2) ∧ decodeTag 0b0000_0110 = .ok .hRdSample

/-- Sections 2 and 3 of 30_encoding: an instruction placed where the next step fetches it is the one the next step
executes. A tag runs on the state with `IP` cleared, a command on the state its issue leaves. The placing and the
condition under which `exec` of a micro-step is reached are the model's (log 16, log 17). -/
def Obligations.PlacedInstructionRunsNext : Prop :=
  (∀ (s : State) (w : Nat) (i : Instr), decodeTableWord 8 w = some i →
    step (s.withFetchWord 8 w) =
      exec i { s with state := BitVec.ofNat 8 w, ip := false, ie := true, inited := true, fault := 0 }) ∧
  (∀ (s : State) (w : Nat) (i : Instr), decodeTableWord 16 w = some i →
    step (s.withFetchWord 16 w) =
      exec i { s with act := .idle, rsp := none, ip := if s.serviceEnabled then false else s.ip })

/-- R22: the structured reading is a bijection between the eight tags and the eight variants, and the codes 0x00 to 0x07
are exactly the values of STATE that hold a tag. -/
def Obligations.TagsAndVariantsCorrespond : Prop :=
  Function.Bijective Tag.variant ∧ (∀ t : Tag, Tag.ofCode? t.code = some t) ∧
    (∀ b : Byte, Tag.ofCode? b = none ↔ 8 ≤ b.toNat)

/-! ### A step -/

/-- R91, R10: when the host issues a word that decodes, the step is that command's execution on the state whose port
holds the rest of the host's program and whose response is gone. That the response of the last command goes with the
issue is the model's (log 20). -/
def Obligations.StepRunsTheIssuedCommand : Prop :=
  ∀ (s : State) (w : CmdWord) (rest : List HostItem) (i : Instr),
    s.Issues w rest → decodeCommand w = .ok i → step s = exec i { s with port := rest, rsp := none }

/-- R150, R253: when SERVICE is enabled and STATE holds a legal tag, the step is the execution of the micro-step the tag
selects on the state with IP cleared, whatever the host is doing. -/
def Obligations.StepRunsTheServicedMicroStep : Prop :=
  ∀ (s : State) (i : Instr),
    s.inited = true → s.NoFault → s.ip = true → s.ie = true → decodeTag s.state = .ok i →
      step s = exec i { s with ip := false }

/-- R130, R131: at a boundary at which TICK is enabled the counter is incremented modulo `2^W`, and when it then equals
CMP the event is recorded in IP and the counter cleared. `k` and `port` are the model's (log 1, log 2). -/
def Obligations.TickCountsAndMatches : Prop :=
  ∀ (s : State) (rest : List HostItem),
    s.serviceEnabled = false → s.HostPasses rest →
    s.inited = true → s.NoFault → s.tRun = true → s.tPeriodic = true →
      step s = .next
        (if (s.cnt + 1) % 2 ^ s.cfg.w = s.cmp then { s with k := s.k + 1, port := rest, cnt := 0, ip := true }
         else { s with k := s.k + 1, port := rest, cnt := (s.cnt + 1) % 2 ^ s.cfg.w })

/-- R136: while the timer is stopped, before INIT, or after a fault, the boundary passes and nothing else happens. `k`
and `port` are the model's (log 1, log 2). -/
def Obligations.StoppedTimerTakesNoStep : Prop :=
  ∀ (s : State) (rest : List HostItem),
    s.serviceEnabled = false → s.HostPasses rest →
    (s.tRun = false ∨ s.inited = false ∨ s.fault ≠ 0) →
      step s = .next { s with k := s.k + 1, port := rest }

/-- The model's choice for a mode the spec gives no behaviour (93 U21; log 11): with the timer running and `T_PERIODIC =
0` the passing of a boundary stops by name; and no other step stops, in any state. -/
def Obligations.OnlyNonPeriodicTimerStops : Prop :=
  ∀ (s : State),
    ((∃ t, step s = .next t) ∨ step s = .fault .timerNotPeriodic) ∧
    (step s = .fault .timerNotPeriodic ↔
      (s.inited = true ∧ s.NoFault ∧ s.tRun = true ∧ s.tPeriodic = false ∧ s.serviceEnabled = false ∧
        ∃ rest, s.HostPasses rest))

/-- R139: from `CNT = 0` and `CMP = n`, the first `n - 1` ticks count without an event, and the `n`-th records the event
and leaves `CNT = 0`. -/
def Obligations.DelayLaw : Prop :=
  ∀ (s : State) (n : Nat), s.cnt = 0 → s.cmp = n → 1 ≤ n → n ≤ 2 ^ s.cfg.w - 1 →
    (∀ j, j < n → State.tick^[j] s = { s with cnt := j }) ∧ State.tick^[n] s = { s with cnt := 0, ip := true }

/-! ### Commands -/

/-- R232: NOP is the word 0x0000 and changes nothing, before INIT too. That it is refused after a fault leaves the state
as it was (log 9). -/
def Obligations.NopChangesNothing : Prop :=
  decodeCommand 0x0000 = .ok .nop ∧ ∀ s : State, exec .nop s = .next s

/-- R230, R245: INIT writes the seven registers the rule lists and nothing else; with an operation in flight it records
F_INIT_INFLIGHT (code 4) with the tag found; before INIT the old STATE is not examined. The info of a fault stands in
`diag` (log 10). -/
def Obligations.InitSetsIdle : Prop :=
  decodeCommand 0x1000 = .ok .init ∧
  (∀ s : State, s.NoFault → (s.inited = false ∨ s.state = 0x00) →
    exec .init s = .next { s with
      state := 0x00, dir := false, out := false, tPeriodic := true, ie := true, tRun := s.cfg.initRun, inited := true }) ∧
  (∀ s : State, s.NoFault → s.inited = true → s.state ≠ 0x00 →
    exec .init s = .next { s with fault := 4, diag := some (s.state.setWidth 16) })

/-- R231: INIT in Idle can change no register but T_RUN, and a second INIT changes nothing. -/
def Obligations.InitIsIdempotent : Prop :=
  (∀ s : State, s.Inv → s.NoFault → s.inited = true → s.state = 0x00 →
    exec .init s = .next { s with tRun := s.cfg.initRun }) ∧
  (∀ s t : State, exec .init s = .next t → t.NoFault → exec .init t = .next t)

/-- R210: START sets T_RUN and writes nothing else, whatever STATE holds. The info of a fault stands in `diag` (log 10).
-/
def Obligations.StartSetsTheTimerRunning : Prop :=
  decodeCommand 0x2000 = .ok .start ∧
  (∀ s : State, s.NoFault → s.inited = true → exec .start s = .next { s with tRun := true }) ∧
  (∀ s : State, s.NoFault → s.inited = false → exec .start s = .next { s with fault := 2, diag := some 0x2000 })

/-- R180, R181: ARM_W0 clears the counter, programs W0_LOW, sets WRITE0_LOW and drives the pin low; IP is not cleared. A
command that does not wait leaves the host free, `act` idle (log 3, log 9); the info of a fault stands in `diag` (log
10). -/
def Obligations.ArmWriteZeroStartsSlot : Prop :=
  decodeCommand 0x3000 = .ok .armW0 ∧
  (∀ s : State, s.NoFault → s.inited = true → s.state = 0x00 →
    exec .armW0 s = .next { s with cnt := 0, cmp := s.cfg.w0Low, state := 0x01, dir := true, act := .idle }) ∧
  (∀ s : State, s.NoFault → s.inited = true → s.state ≠ 0x00 →
    exec .armW0 s = .next { s with fault := 3, diag := some (s.state.setWidth 16), act := .idle }) ∧
  (∀ s : State, s.NoFault → s.inited = false → exec .armW0 s = .next { s with fault := 2, diag := some 0x3000 })

/-- R180, R182: ARM_W1 clears the counter, programs A, sets WRITE1_LOW and drives the pin low. A command that does not
wait leaves the host free, `act` idle (log 3, log 9); the info of a fault stands in `diag` (log 10). -/
def Obligations.ArmWriteOneStartsSlot : Prop :=
  decodeCommand 0x3001 = .ok .armW1 ∧
  (∀ s : State, s.NoFault → s.inited = true → s.state = 0x00 →
    exec .armW1 s = .next { s with cnt := 0, cmp := s.cfg.a, state := 0x03, dir := true, act := .idle }) ∧
  (∀ s : State, s.NoFault → s.inited = true → s.state ≠ 0x00 →
    exec .armW1 s = .next { s with fault := 3, diag := some (s.state.setWidth 16), act := .idle }) ∧
  (∀ s : State, s.NoFault → s.inited = false → exec .armW1 s = .next { s with fault := 2, diag := some 0x3001 })

/-- R180, R183: ARM_RD clears the counter, programs A, sets READ_LOW and drives the pin low; SAMPLED is not cleared. A
command that does not wait leaves the host free, `act` idle (log 3, log 9); the info of a fault stands in `diag` (log
10). -/
def Obligations.ArmReadStartsSlot : Prop :=
  decodeCommand 0x3002 = .ok .armRd ∧
  (∀ s : State, s.NoFault → s.inited = true → s.state = 0x00 →
    exec .armRd s = .next { s with cnt := 0, cmp := s.cfg.a, state := 0x05, dir := true, act := .idle }) ∧
  (∀ s : State, s.NoFault → s.inited = true → s.state ≠ 0x00 →
    exec .armRd s = .next { s with fault := 3, diag := some (s.state.setWidth 16), act := .idle }) ∧
  (∀ s : State, s.NoFault → s.inited = false → exec .armRd s = .next { s with fault := 2, diag := some 0x3002 })

/-- R184: RD_STATE returns the whole of STATE and changes nothing. The info of a fault stands in `diag` (log 10). -/
def Obligations.RdStateReturnsTag : Prop :=
  decodeCommand 0x4000 = .ok .rdState ∧
  (∀ s : State, s.NoFault → s.inited = true → exec .rdState s = .next { s with rsp := some s.state }) ∧
  (∀ s : State, s.NoFault → s.inited = false → exec .rdState s = .next { s with fault := 2, diag := some 0x4000 })

/-- R185: RD_SAMPLE returns 0x00 or 0x01 as SAMPLED holds, in any phase, and changes nothing. The info of a fault stands
in `diag` (log 10). -/
def Obligations.RdSampleReturnsSampledBit : Prop :=
  decodeCommand 0x5000 = .ok .rdSample ∧
  (∀ s : State, s.NoFault → s.inited = true →
    exec .rdSample s = .next { s with rsp := some (if s.sampled then 0x01 else 0x00) }) ∧
  (∀ s : State, s.NoFault → s.inited = false → exec .rdSample s = .next { s with fault := 2, diag := some 0x5000 })

/-- R186: WAIT_IDLE completes at its own boundary in Idle and otherwise holds the host: a held host completes at a
boundary at which STATE is 0x00 once SERVICE has run, and takes no step of its own before. That the host's place in the
expansion stands in `act`, one primitive a step, is the model's (log 3), as is `diag` (log 10) and the end of a
composite at a fault (log 9). -/
def Obligations.WaitIdleHoldsTheHost : Prop :=
  decodeCommand 0x6000 = .ok .waitIdle ∧
  (∀ s : State, s.NoFault → s.inited = true → s.state = 0x00 → exec .waitIdle s = .next s) ∧
  (∀ s : State, s.NoFault → s.inited = true → s.state ≠ 0x00 → exec .waitIdle s = .next { s with act := .waitIdle }) ∧
  (∀ s : State, s.NoFault → s.inited = false → exec .waitIdle s = .next { s with fault := 2, diag := some 0x6000 }) ∧
  (∀ s : State, s.act = .waitIdle → s.serviceEnabled = false → s.NoFault → s.inited = true → s.state = 0x00 →
    step s = .next { s with act := .idle }) ∧
  (∀ s : State, s.act = .waitIdle → (s.state ≠ 0x00 ∨ s.fault ≠ 0) → s.HostPasses s.port)

/-- R187: WRITE_BIT v arms a write-one slot for 1 and a write-zero slot for 0 and then waits for Idle. That the host's
place in the expansion stands in `act`, one primitive a step, is the model's (log 3), as is `diag` (log 10) and the end
of a composite at a fault (log 9). -/
def Obligations.WriteBitArmsAndWaits : Prop :=
  decodeCommand 0x8000 = .ok (.writeBit false) ∧ decodeCommand 0x8001 = .ok (.writeBit true) ∧
  (∀ (s : State) (v : Bool), s.NoFault → s.inited = true → s.state = 0x00 →
    exec (.writeBit v) s = .next { s with
      cnt := 0, cmp := if v then s.cfg.a else s.cfg.w0Low, state := if v then 0x03 else 0x01, dir := true,
      act := .writeBit }) ∧
  (∀ (s : State) (v : Bool), s.NoFault → s.inited = true → s.state ≠ 0x00 →
    exec (.writeBit v) s = .next { s with fault := 3, diag := some (s.state.setWidth 16), act := .idle }) ∧
  (∀ (s : State) (v : Bool), s.NoFault → s.inited = false →
    exec (.writeBit v) s = .next { s with fault := 2, diag := some (if v then 0x8001 else 0x8000) }) ∧
  (∀ s : State, s.act = .writeBit → s.serviceEnabled = false → s.NoFault → s.inited = true → s.state = 0x00 →
    step s = .next { s with act := .idle }) ∧
  (∀ s : State, s.act = .writeBit → (s.state ≠ 0x00 ∨ s.fault ≠ 0) → s.HostPasses s.port)

/-- R188: READ_BIT arms a read slot, waits for Idle and then returns SAMPLED. That the host's place in the expansion
stands in `act`, one primitive a step, is the model's (log 3), as is `diag` (log 10) and the end of a composite at a
fault (log 9). -/
def Obligations.ReadBitArmsWaitsAndReturns : Prop :=
  decodeCommand 0x9000 = .ok .readBit ∧
  (∀ s : State, s.NoFault → s.inited = true → s.state = 0x00 →
    exec .readBit s = .next { s with cnt := 0, cmp := s.cfg.a, state := 0x05, dir := true, act := .readBit }) ∧
  (∀ s : State, s.NoFault → s.inited = true → s.state ≠ 0x00 →
    exec .readBit s = .next { s with fault := 3, diag := some (s.state.setWidth 16), act := .idle }) ∧
  (∀ s : State, s.NoFault → s.inited = false → exec .readBit s = .next { s with fault := 2, diag := some 0x9000 }) ∧
  (∀ s : State, s.act = .readBit → s.serviceEnabled = false → s.NoFault → s.inited = true → s.state = 0x00 →
    step s = .next { s with act := .idle, rsp := some (if s.sampled then 0x01 else 0x00) }) ∧
  (∀ s : State, s.act = .readBit → (s.state ≠ 0x00 ∨ s.fault ≠ 0) → s.HostPasses s.port)

/-- R211: WRITE_BYTE b starts the timer and takes `SH = b`; slot N is armed with `SH[0]` and waited for, `SH` is shifted
right, and after eight slots the command is over; arming while STATE is not Idle is F_REENTRY and ends the command. That
the host's place in the expansion stands in `act`, one primitive a step, is the model's (log 3), as is `diag` (log 10)
and the end of a composite at a fault (log 9). -/
def Obligations.WriteByteTakesEightSlots : Prop :=
  (∀ b : Byte, decodeCommand (0xA000 + b.setWidth 16) = .ok (.writeByte b)) ∧
  (∀ (s : State) (b : Byte), s.NoFault → s.inited = true →
    exec (.writeByte b) s = .next { s with tRun := true, act := .writeByteArm b 0 }) ∧
  (∀ (s : State) (b : Byte), s.NoFault → s.inited = false →
    exec (.writeByte b) s = .next { s with fault := 2, diag := some (0xA000 + b.setWidth 16) }) ∧
  (∀ (s : State) (sh : Byte) (n : Nat), s.act = .writeByteArm sh n → s.serviceEnabled = false → s.NoFault →
    s.inited = true → s.state = 0x00 →
    step s = .next { s with
      cnt := 0, cmp := if sh.getLsbD 0 then s.cfg.a else s.cfg.w0Low, state := if sh.getLsbD 0 then 0x03 else 0x01,
      dir := true, act := .writeByteWait sh n }) ∧
  (∀ (s : State) (sh : Byte) (n : Nat), s.act = .writeByteArm sh n → s.serviceEnabled = false → s.NoFault →
    s.inited = true → s.state ≠ 0x00 →
    step s = .next { s with fault := 3, diag := some (s.state.setWidth 16), act := .idle }) ∧
  (∀ (s : State) (sh : Byte) (n : Nat), s.act = .writeByteWait sh n → s.serviceEnabled = false → s.NoFault →
    s.inited = true → s.state = 0x00 →
    step s = .next { s with act := if n < 7 then .writeByteArm (sh >>> 1) (n + 1) else .idle }) ∧
  (∀ (s : State) (sh : Byte) (n : Nat), s.act = .writeByteWait sh n → (s.state ≠ 0x00 ∨ s.fault ≠ 0) → s.HostPasses s.port)

/-- R212: READ_BYTE starts the timer; slot N is armed, waited for, and its sample inserted at bit 7 of `ACC` after a
shift right; after eight slots `ACC` is returned; arming while STATE is not Idle is F_REENTRY and ends the command. That
the host's place in the expansion stands in `act`, one primitive a step, is the model's (log 3), as is `diag` (log 10)
and the end of a composite at a fault (log 9). -/
def Obligations.ReadByteTakesEightSlots : Prop :=
  decodeCommand 0xB000 = .ok .readByte ∧
  (∀ s : State, s.NoFault → s.inited = true →
    exec .readByte s = .next { s with tRun := true, act := .readByteArm 0x00 0 }) ∧
  (∀ s : State, s.NoFault → s.inited = false → exec .readByte s = .next { s with fault := 2, diag := some 0xB000 }) ∧
  (∀ (s : State) (acc : Byte) (n : Nat), s.act = .readByteArm acc n → s.serviceEnabled = false → s.NoFault →
    s.inited = true → s.state = 0x00 →
    step s = .next { s with cnt := 0, cmp := s.cfg.a, state := 0x05, dir := true, act := .readByteWait acc n }) ∧
  (∀ (s : State) (acc : Byte) (n : Nat), s.act = .readByteArm acc n → s.serviceEnabled = false → s.NoFault →
    s.inited = true → s.state ≠ 0x00 →
    step s = .next { s with fault := 3, diag := some (s.state.setWidth 16), act := .idle }) ∧
  (∀ (s : State) (acc : Byte) (n : Nat), s.act = .readByteWait acc n → s.serviceEnabled = false → s.NoFault →
    s.inited = true → s.state = 0x00 →
    step s = .next (if n < 7 then
        { s with act := .readByteArm (if s.sampled then (acc >>> 1) ||| 0x80 else acc >>> 1) (n + 1) }
      else { s with act := .idle, rsp := some (if s.sampled then (acc >>> 1) ||| 0x80 else acc >>> 1) })) ∧
  (∀ (s : State) (acc : Byte) (n : Nat), s.act = .readByteWait acc n → (s.state ≠ 0x00 ∨ s.fault ≠ 0) → s.HostPasses s.port)

/-- R243, R233: every command but NOP and INIT issued before INIT records F_USE_BEFORE_INIT (code 2) with its word and
writes nothing else. The info of a fault stands in `diag` (log 10). -/
def Obligations.CommandsBeforeInitFault : Prop :=
  ∀ (s : State) (i : Instr) (w : CmdWord), s.NoFault → s.inited = false → encode i = .cmd w → i ≠ .nop → i ≠ .init →
    exec i s = .next { s with fault := 2, diag := some w }

/-- R248: once a fault is recorded every command is refused without effect, and no step of any agent writes a register
of the core, so the first code stays. That the host may still issue words, and is answered by nothing, is the model's
(log 9). -/
def Obligations.FaultsAreStickyAndFinal : Prop :=
  (∀ (s : State) (i : Instr), s.fault ≠ 0 → i.isCommand = true → exec i s = .next s) ∧
  (∀ s : State, s.fault ≠ 0 → ∃ t, step s = .next t ∧
    t = { s with port := t.port, act := t.act, rsp := t.rsp, k := t.k })

/-! ### Micro-steps -/

/-- R151: a compare-match event in Idle only clears IP. -/
def Obligations.IdleEventDoesNothing : Prop :=
  (∀ s : State, exec .hIdle s = .next s) ∧
  (∀ s : State, s.serviceEnabled = true → s.state = 0x00 → step s = .next { s with ip := false })

/-- R152, R153: the micro-steps of a write-zero slot. -/
def Obligations.WriteZeroMicroSteps : Prop :=
  (∀ s : State, exec .hW0Low s = .next { s with dir := false, cmp := s.cfg.d, state := 0x02 }) ∧
  (∀ s : State, exec .hW0Rel s = .next { s with state := 0x00 }) ∧
  (∀ s : State, s.serviceEnabled = true → s.state = 0x01 →
    step s = .next { s with ip := false, dir := false, cmp := s.cfg.d, state := 0x02 }) ∧
  (∀ s : State, s.serviceEnabled = true → s.state = 0x02 → step s = .next { s with ip := false, state := 0x00 })

/-- R154, R155: the micro-steps of a write-one slot. -/
def Obligations.WriteOneMicroSteps : Prop :=
  (∀ s : State, exec .hW1Low s = .next { s with dir := false, cmp := s.cfg.b, state := 0x04 }) ∧
  (∀ s : State, exec .hW1Rel s = .next { s with state := 0x00 }) ∧
  (∀ s : State, s.serviceEnabled = true → s.state = 0x03 →
    step s = .next { s with ip := false, dir := false, cmp := s.cfg.b, state := 0x04 }) ∧
  (∀ s : State, s.serviceEnabled = true → s.state = 0x04 → step s = .next { s with ip := false, state := 0x00 })

/-- R156, R158: the first and the last micro-step of a read slot. -/
def Obligations.ReadMicroSteps : Prop :=
  (∀ s : State, exec .hRdLow s = .next { s with dir := false, cmp := s.cfg.e, state := 0x06 }) ∧
  (∀ s : State, exec .hRdRel s = .next { s with state := 0x00 }) ∧
  (∀ s : State, s.serviceEnabled = true → s.state = 0x05 →
    step s = .next { s with ip := false, dir := false, cmp := s.cfg.e, state := 0x06 }) ∧
  (∀ s : State, s.serviceEnabled = true → s.state = 0x07 → step s = .next { s with ip := false, state := 0x00 })

/-- R157, R24: H_RD_SAMPLE stores the level of the wire at this boundary, `1 - DEV(k)` where the pin is released,
programs F and goes on to Releasing; and no other step changes SAMPLED. -/
def Obligations.SampleMicroStepAloneWritesSampled : Prop :=
  (∀ s : State, exec .hRdSample s = .next { s with sampled := s.line, cmp := s.cfg.f, state := 0x07 }) ∧
  (∀ s : State, s.serviceEnabled = true → s.state = 0x06 →
    step s = .next { s with ip := false, sampled := s.line, cmp := s.cfg.f, state := 0x07 }) ∧
  (∀ s : State, s.serviceEnabled = true → s.state = 0x06 → s.dir = false →
    step s = .next { s with ip := false, sampled := !s.devAt s.k, cmp := s.cfg.f, state := 0x07 }) ∧
  (∀ s t : State, step s = .next t → t.sampled ≠ s.sampled →
    s.serviceEnabled = true ∧ s.state = 0x06 ∧ t.sampled = s.line)

/-- R159, R246, R86: a serviced event that finds a tag of 0x08 to 0xFF records F_BAD_STATE (code 5); only IP and FAULT
are written; the decoder knows no micro-step for such a tag. The info of a fault stands in `diag` (log 10). -/
def Obligations.IllegalTagIsBadState : Prop :=
  (∀ t : Byte, (∃ e, decodeTag t = .error e) ↔ 0x08 ≤ t.toNat) ∧
  (∀ s : State, s.serviceEnabled = true → 0x08 ≤ s.state.toNat →
    step s = .next { s with ip := false, fault := 5, diag := some (s.state.setWidth 16) })

/-- R163: a serviced event moves the tag along its own operation only: 1, 2, 0; 3, 4, 0; 5, 6, 7, 0; Idle stays Idle; so
at most three events return any legal tag to Idle. -/
def Obligations.EventsFollowTheTransitionTable : Prop :=
  (∀ s t : State, s.Serves t → s.state.toNat < 8 →
    t.state = (if s.state = 0x01 then 0x02 else if s.state = 0x03 then 0x04 else if s.state = 0x05 then 0x06
      else if s.state = 0x06 then 0x07 else 0x00)) ∧
  (∀ s0 t0 s1 t1 s2 t2 : State, s0.state.toNat < 8 →
    s0.Serves t0 → s1.state = t0.state → s1.Serves t1 → s2.state = t1.state → s2.Serves t2 →
    t0.state = 0x00 ∨ t1.state = 0x00 ∨ t2.state = 0x00)

/-! ### The wire -/

/-- R113, where it gives a level: the master low, a device low, released, the master high without a device. -/
def Obligations.LineIsWiredAnd : Prop :=
  ∀ s : State, s.inited = true → s.NoFault →
    (s.dir = true → s.out = false → s.line = false) ∧
    (s.dir = false → s.devAt s.k = true → s.line = false) ∧
    (s.dir = false → s.devAt s.k = false → s.line = true) ∧
    (s.dir = true → s.out = true → s.devAt s.k = false → s.line = true)

/-- R116, R31: after INIT no step makes the master drive the line high, and the level is high exactly when neither side
pulls low. -/
def Obligations.MasterNeverDrivesHigh : Prop :=
  ∀ s t : State, s.Inv → step s = .next t → t.inited = true → t.NoFault →
    ¬(t.dir = true ∧ t.out = true) ∧ t.line = (!t.dir && !t.devAt t.k)

/-! ### Frames and whole-machine rules -/

/-- R61 and the command rules: what the execution of a command leaves unchanged, and what only the named ones write. Of
a composite command this is the first primitive alone, `exec` being no more (log 3): that is why WRITE_BYTE and
READ_BYTE leave CNT, CMP, STATE and DIR here, and READ_BIT and READ_BYTE the response, which later steps write (R90,
R211, R212). The last two clauses speak of `diag`, the info of a fault (log 10): without a new fault it stays, and with
one only it, FAULT and `act` (log 9) are written. -/
def Obligations.CommandsWriteOnlyTheirRegisters : Prop :=
  ∀ (i : Instr) (s t : State), i.isCommand = true → exec i s = .next t →
    (t.sampled = s.sampled ∧ t.ip = s.ip ∧ t.k = s.k ∧ t.port = s.port ∧ t.env = s.env ∧ t.cfg = s.cfg) ∧
    (i ≠ .init → t.out = s.out ∧ t.tPeriodic = s.tPeriodic ∧ t.ie = s.ie ∧ t.inited = s.inited) ∧
    (i ≠ .init → i ≠ .start → i ≠ .readByte → (∀ b, i ≠ .writeByte b) → t.tRun = s.tRun) ∧
    (i ≠ .armW0 → i ≠ .armW1 → i ≠ .armRd → i ≠ .readBit → (∀ v, i ≠ .writeBit v) →
      t.cnt = s.cnt ∧ t.cmp = s.cmp ∧ (i ≠ .init → t.state = s.state ∧ t.dir = s.dir)) ∧
    (i ≠ .rdState → i ≠ .rdSample → t.rsp = s.rsp) ∧
    (i = .nop ∨ i = .init ∨ i = .start ∨ i = .rdState ∨ i = .rdSample → t.act = s.act) ∧
    (t.fault = s.fault → t.diag = s.diag) ∧
    (t.fault ≠ s.fault → t = { s with fault := t.fault, diag := t.diag, act := t.act })

/-- R161: a micro-step writes no register but STATE, CMP, DIR and SAMPLED, the last only in H_RD_SAMPLE, DIR only in the
three Low micro-steps, CMP only in the four that reprogram it. -/
def Obligations.MicroStepsWriteOnlyTheirRegisters : Prop :=
  ∀ (i : Instr) (s t : State), i.isCommand = false → exec i s = .next t →
    t = { s with state := t.state, cmp := t.cmp, dir := t.dir, sampled := t.sampled } ∧
    (i ≠ .hRdSample → t.sampled = s.sampled) ∧
    (i ≠ .hW0Low → i ≠ .hW1Low → i ≠ .hRdLow → t.dir = s.dir ∧ (i ≠ .hRdSample → t.cmp = s.cmp)) ∧
    (i = .hIdle → t.state = s.state)

/-- R23, R257: while STATE is not IDLE only a serviced event changes it; while it is IDLE only the host does, to a Low
tag and driving the pin, by issuing one of the six arming words or by going on with a composite command, at no cost of
time; before INIT only the issue of INIT, to IDLE. The host's fields are the model's (log 2, log 3). -/
def Obligations.StateHasOneOwnerAtATime : Prop :=
  ∀ s t : State, step s = .next t → t.state ≠ s.state →
    (s.serviceEnabled = true ∧ s.state ≠ 0x00 ∧ t.k = s.k) ∨
    (s.serviceEnabled = false ∧ s.state = 0x00 ∧ (t.state = 0x01 ∨ t.state = 0x03 ∨ t.state = 0x05) ∧ t.dir = true ∧
      t.k = s.k ∧
      (s.hostContinue = some t ∨
        ∃ w rest, s.Issues w rest ∧
          (w = 0x3000 ∨ w = 0x3001 ∨ w = 0x3002 ∨ w = 0x8000 ∨ w = 0x8001 ∨ w = 0x9000))) ∨
    (s.inited = false ∧ t.inited = true ∧ t.state = 0x00 ∧ t.k = s.k ∧ ∃ rest, s.Issues 0x1000 rest)

/-- R27, R28, R33: no step clears IE, T_PERIODIC or INITED; T_RUN is cleared only by INIT with INIT_RUN = 0. -/
def Obligations.ControlBitsAreNotCleared : Prop :=
  ∀ s t : State, step s = .next t →
    (s.ie = true → t.ie = true) ∧ (s.tPeriodic = true → t.tPeriodic = true) ∧ (s.inited = true → t.inited = true) ∧
    (s.tRun = true → t.tRun = false → (∃ rest, s.Issues 0x1000 rest) ∧ s.cfg.initRun = false)

/-- R31: the only step that can change OUT is INIT, which clears it. -/
def Obligations.OnlyInitWritesOut : Prop :=
  ∀ s t : State, step s = .next t → t.out ≠ s.out → (∃ rest, s.Issues 0x1000 rest) ∧ t.out = false

/-- R29, R250: IP is set only by the TICK of a passing boundary whose counter reaches CMP, and cleared only by a
serviced event; a boundary never clears it. -/
def Obligations.PendingFlagIsSetByMatchClearedByService : Prop :=
  ∀ s t : State, step s = .next t →
    (s.ip = false → t.ip = true → s.tickEnabled = true ∧ (s.cnt + 1) % 2 ^ s.cfg.w = s.cmp ∧ t.cnt = 0 ∧ t.k = s.k + 1) ∧
    (s.ip = true → t.ip = false → s.serviceEnabled = true)

/-- R39: no step changes the parameters or the environment's choices. -/
def Obligations.ParametersAndEnvironmentAreFixed : Prop :=
  ∀ s t : State, step s = .next t → t.cfg = s.cfg ∧ t.env = s.env

/-- R10, R299: every step of SERVICE and of the host takes zero ticks; a step that passes a boundary advances it by one
and writes nothing but CNT and IP beside the host's port. `k` and `port` are the model's (log 1, log 2). -/
def Obligations.TimePassesOnlyAtBoundaries : Prop :=
  ∀ s t : State, step s = .next t →
    t.k = s.k ∨
    (s.serviceEnabled = false ∧ s.HostPasses t.port ∧
      t = { s with k := s.k + 1, port := t.port, cnt := t.cnt, ip := t.ip })

/-- R42 I5, R10, R251: when the host takes a step after INIT with the interrupt enabled and no fault, no event is
pending. A step of the host is one that changes `port`, `act` or `rsp` (log 1, log 2). -/
def Obligations.ServicePrecedesTheHost : Prop :=
  ∀ s t : State, step s = .next t → s.inited = true → s.NoFault → s.ie = true →
    (t.port ≠ s.port ∨ t.act ≠ s.act ∨ t.rsp ≠ s.rsp) → s.ip = false

/-- R42 I6, R189: when a composite command completes without a fault, STATE is IDLE and no event is pending. The number
of steps and `act` are the model's (log 1, log 3). -/
def Obligations.CompositesCompleteInIdle : Prop :=
  ∀ s t : State, step s = .next t → s.act ≠ .idle → t.act = .idle → t.NoFault → s.ie = true →
    t.state = 0x00 ∧ t.ip = false

/-- R42 (I1 to I4), R25, R26, R34, R35: every step keeps the invariant. The clauses on `act` are the model's (log 3). -/
def Obligations.StepKeepsInv : Prop :=
  ∀ s t : State, s.Inv → step s = .next t → t.Inv

/-- R42, R40: the state after hardware reset meets the invariant. That the open values of CNT and CMP are W-bit values
is the model's reading (log 4, log 12). -/
def Obligations.ResetMeetsInv : Prop := State.reset.Inv

/-- R280, R40: hardware reset clears INITED and FAULT; then NOP changes nothing, INIT gives the values of R41, and every
other command records F_USE_BEFORE_INIT. Nothing is said of a register R40 leaves open. -/
def Obligations.ResetAllowsOnlyNopAndInit : Prop :=
  State.reset.inited = false ∧ State.reset.fault = 0 ∧ exec .nop State.reset = .next State.reset ∧
  (∃ t, exec .init State.reset = .next t ∧ t.state = 0x00 ∧ t.dir = false ∧ t.out = false ∧ t.tPeriodic = true ∧
    t.ie = true ∧ t.tRun = State.reset.cfg.initRun ∧ t.inited = true ∧ t.fault = 0 ∧ t.cnt = State.reset.cnt ∧
    t.cmp = State.reset.cmp ∧ t.sampled = State.reset.sampled ∧ t.ip = State.reset.ip) ∧
  (∀ i : Instr, i.isCommand = true → i ≠ .nop → i ≠ .init → ∃ t, exec i State.reset = .next t ∧ t.fault = 2)

/-- R6, R7 with decision D10 of 92_eei_decisions: a configuration, which every state carries in `cfg` (log 6), exists
exactly for the parameters that meet the constraints, C's included (D10); the check made before any run gives that
configuration and refuses every other record; at reset W0_LOW is A. That G to J are not bounded is the model's choice
(log 21). -/
def Obligations.ConfigurationsAreValid : Prop :=
  State.reset.cfg.w0Low = State.reset.cfg.a ∧
  (∀ p : Params, (∃ c : Config, c.toParams = p) ↔
    (1 ≤ p.w ∧ (1 ≤ p.a ∧ p.a ≤ 2 ^ p.w - 1) ∧ (1 ≤ p.b ∧ p.b ≤ 2 ^ p.w - 1) ∧ (1 ≤ p.c ∧ p.c ≤ 2 ^ p.w - 1) ∧
      (1 ≤ p.d ∧ p.d ≤ 2 ^ p.w - 1) ∧ (1 ≤ p.e ∧ p.e ≤ 2 ^ p.w - 1) ∧ (1 ≤ p.f ∧ p.f ≤ 2 ^ p.w - 1) ∧ (1 ≤ p.w0Low ∧ p.w0Low ≤ 2 ^ p.w - 1))) ∧
  (∀ (p : Params) (c : Config), p.toConfig? = some c ↔ c.toParams = p)

/-! ### Slots and bytes in time -/

/-- R190, R187, R189, R182 (write one): armed at boundary k0, by WRITE_BIT 1 or by ARM_W1 with a host that issues
nothing more, the line is low on k0 .. k0+A-1 and follows the devices on k0+A .. k0+A+B-1; at k0+A+B the slot has ended
in Idle with the pin released, CNT = 0 and CMP = B, and WRITE_BIT completes at that boundary. The number of steps and
`act` are the model's (log 1, log 3). -/
def Obligations.WriteOneSlotTakesAPlusB : Prop :=
  ∀ (s : State) (i : Instr) (a : HostAct), s.SlotReady →
    ((i = .writeBit true ∧ a = .writeBit) ∨ (i = .armW1 ∧ a = .idle ∧ s.port = [])) →
    ∃ s1, exec i s = .next s1 ∧
      (∀ j, j < s.cfg.a → ∃ u, s1.After j u ∧ u.k = s.k + j ∧ u.act = a ∧ u.line = false) ∧
      (∀ j, s.cfg.a ≤ j → j < s.cfg.a + s.cfg.b →
        ∃ u, s1.After (j + 1) u ∧ u.k = s.k + j ∧ u.act = a ∧ u.line = !s.devAt (s.k + j)) ∧
      s1.After (s.cfg.a + s.cfg.b + 2)
        { s with k := s.k + s.cfg.a + s.cfg.b, cnt := 0, cmp := s.cfg.b, dir := false, act := a } ∧
      (i = .writeBit true → s1.After (s.cfg.a + s.cfg.b + 3)
        { s with k := s.k + s.cfg.a + s.cfg.b, cnt := 0, cmp := s.cfg.b, dir := false })

/-- R190, R187, R189, R181 (write zero): armed at boundary k0, by WRITE_BIT 0 or by ARM_W0 with a host that issues
nothing more, the line is low for W0_LOW ticks and released for D ticks; at k0+W0_LOW+D the slot has ended in Idle with
CMP = D, and WRITE_BIT completes at that boundary. The number of steps and `act` are the model's (log 1, log 3). -/
def Obligations.WriteZeroSlotTakesW0LowPlusD : Prop :=
  ∀ (s : State) (i : Instr) (a : HostAct), s.SlotReady →
    ((i = .writeBit false ∧ a = .writeBit) ∨ (i = .armW0 ∧ a = .idle ∧ s.port = [])) →
    ∃ s1, exec i s = .next s1 ∧
      (∀ j, j < s.cfg.w0Low → ∃ u, s1.After j u ∧ u.k = s.k + j ∧ u.act = a ∧ u.line = false) ∧
      (∀ j, s.cfg.w0Low ≤ j → j < s.cfg.w0Low + s.cfg.d →
        ∃ u, s1.After (j + 1) u ∧ u.k = s.k + j ∧ u.act = a ∧ u.line = !s.devAt (s.k + j)) ∧
      s1.After (s.cfg.w0Low + s.cfg.d + 2)
        { s with k := s.k + s.cfg.w0Low + s.cfg.d, cnt := 0, cmp := s.cfg.d, dir := false, act := a } ∧
      (i = .writeBit false → s1.After (s.cfg.w0Low + s.cfg.d + 3)
        { s with k := s.k + s.cfg.w0Low + s.cfg.d, cnt := 0, cmp := s.cfg.d, dir := false })

/-- R190, R188, R189, R183 (read): armed at boundary k0, by READ_BIT or by ARM_RD with a host that issues nothing more,
the line is low on k0 .. k0+A-1 and follows the devices until k0+A+E+F-1, the sample is the level of interval k0+A+E; at
k0+A+E+F the slot has ended in Idle with the pin released, CNT = 0 and CMP = F, and READ_BIT completes at that boundary
and returns the sample. The number of steps and `act` are the model's (log 1, log 3). -/
def Obligations.ReadSlotReturnsLineAtAPlusE : Prop :=
  ∀ (s : State) (i : Instr) (a : HostAct), s.SlotReady →
    ((i = .readBit ∧ a = .readBit) ∨ (i = .armRd ∧ a = .idle ∧ s.port = [])) →
    ∃ s1, exec i s = .next s1 ∧
      (∀ j, j < s.cfg.a → ∃ u, s1.After j u ∧ u.k = s.k + j ∧ u.act = a ∧ u.line = false) ∧
      (∀ j, s.cfg.a ≤ j → j < s.cfg.a + s.cfg.e →
        ∃ u, s1.After (j + 1) u ∧ u.k = s.k + j ∧ u.act = a ∧ u.line = !s.devAt (s.k + j)) ∧
      (∀ j, s.cfg.a + s.cfg.e ≤ j → j < s.cfg.a + s.cfg.e + s.cfg.f →
        ∃ u, s1.After (j + 2) u ∧ u.k = s.k + j ∧ u.act = a ∧ u.line = !s.devAt (s.k + j)) ∧
      s1.After (s.cfg.a + s.cfg.e + s.cfg.f + 3)
        { s with
          k := s.k + s.cfg.a + s.cfg.e + s.cfg.f, cnt := 0, cmp := s.cfg.f, dir := false, act := a,
          sampled := !s.devAt (s.k + s.cfg.a + s.cfg.e) } ∧
      (i = .readBit → s1.After (s.cfg.a + s.cfg.e + s.cfg.f + 4)
        { s with
          k := s.k + s.cfg.a + s.cfg.e + s.cfg.f, cnt := 0, cmp := s.cfg.f, dir := false,
          sampled := !s.devAt (s.k + s.cfg.a + s.cfg.e),
          rsp := some (if s.devAt (s.k + s.cfg.a + s.cfg.e) then 0x00 else 0x01) })

/-- R191, R247, R286: a wait for Idle during which no event will be serviced, because the timer is stopped or the
interrupt disabled, never completes: after any number of steps the host still waits, nothing but the boundary's number,
CNT and IP has changed (with the timer stopped, nothing but the boundary's number), no fault is recorded, and a line
held low by the master is still low. WRITE_BIT and READ_BIT issued with the timer stopped or the interrupt disabled come
into such a wait, in the Low phase with the pin low. The number of steps and `act` are the model's (log 1, log 3). -/
def Obligations.UnservicedWaitHangsTheHost : Prop :=
  (∀ s : State, s.Unserviced → ∀ n, ∃ t, s.After n t ∧ t.Unserviced ∧
    t = { s with k := s.k + n, cnt := t.cnt, ip := t.ip } ∧
    (s.tRun = false → t.cnt = s.cnt ∧ t.ip = s.ip) ∧ (s.dir = true → s.out = false → t.line = false)) ∧
  (∀ (s : State) (i : Instr), (i = .readBit ∨ ∃ v, i = .writeBit v) → s.inited = true → s.NoFault → s.state = 0x00 →
    ((s.tRun = false ∧ s.ip = false) ∨ (s.ie = false ∧ (s.tRun = true → s.tPeriodic = true))) →
    ∃ s1, exec i s = .next s1 ∧ s1.Unserviced ∧ s1.dir = true ∧ s1.out = s.out ∧ s1.k = s.k ∧
      s1.act = (if i = .readBit then .readBit else .writeBit) ∧
      s1.state = (if i = .readBit then 0x05 else if i = .writeBit true then 0x03 else 0x01))

/-- R214, R211: WRITE_BYTE b issued at k0, with the timer running or stopped (its own START makes it run), is about to
arm slot N, with bit b[N] next, at the end of the N slots before it, and completes at k0 + ones(b)*(A+B) +
zeros(b)*(W0_LOW+D), in Idle with no fault. The number of steps and `act` are the model's (log 1, log 3). -/
def Obligations.WriteByteTakesTheSumOfItsSlots : Prop :=
  ∀ (s : State) (b : Byte), State.SlotReady { s with tRun := true } → ∃ s1, exec (.writeByte b) s = .next s1 ∧
    (∀ n, n < 8 → ∃ m u, s1.After m u ∧ u.k = s.k + Config.byteTicks s.cfg b n ∧ u.NoFault ∧ u.state = 0x00 ∧
      ∃ sh, u.act = .writeByteArm sh n ∧ sh.getLsbD 0 = b.getLsbD n) ∧
    (∃ m t, s1.After m t ∧ t.act = .idle ∧ t.NoFault ∧ t.state = 0x00 ∧ t.dir = false ∧ t.rsp = s.rsp ∧
      t.k = s.k + onesOf b * (s.cfg.a + s.cfg.b) + (8 - onesOf b) * (s.cfg.w0Low + s.cfg.d))

/-- R214, R212, R213: READ_BYTE issued at k0, with the timer running or stopped, completes at k0 + 8*(A+E+F) and returns
the byte whose bit N is the level sampled in slot N, at k0 + N*(A+E+F) + A + E: least significant bit first. The number
of steps and `act` are the model's (log 1, log 3). -/
def Obligations.ReadByteReturnsTheSampledByte : Prop :=
  ∀ s : State, State.SlotReady { s with tRun := true } → ∃ s1, exec .readByte s = .next s1 ∧
    ∃ m t r, s1.After m t ∧ t.act = .idle ∧ t.NoFault ∧ t.state = 0x00 ∧ t.dir = false ∧
      t.k = s.k + 8 * Config.readTicks s.cfg ∧ t.rsp = some r ∧
      ∀ n, n < 8 → r.getLsbD n = !s.devAt (s.k + n * Config.readTicks s.cfg + s.cfg.a + s.cfg.e)

/-- R213: inserting the eight bits in the order WRITE_BYTE sends them rebuilds the byte, whatever ACC starts with. -/
def Obligations.BitOrderRoundTrips : Prop :=
  ∀ b acc : Byte,
    ((List.range 8).map (fun n => nextBit (shiftOut^[n] b))).foldl accInsert acc = b
end

