-- ==== Sys2Proof/Laws/Decode.lean ====
section
/-! SUPPORT. What the decoder answers: the kind of instruction each table yields, which tags and which words yield a given
one, as explicit alternatives. -/

namespace Sys2Proof

/-- Looking a word up in a table that starts with a row: the row's instruction, or the rest of the table. -/
theorem lookupRow_cons {n : Nat} (r : Row n) (rows : List (Row n)) (w : BitVec n) :
    lookupRow (r :: rows) w = if w &&& r.mask = r.pattern then some (r.build w) else lookupRow rows w := by
  unfold lookupRow Row.accepts
  by_cases h : w &&& r.mask = r.pattern <;> simp [h]

@[simp] theorem lookupRow_nil {n : Nat} (w : BitVec n) : lookupRow [] w = none := rfl

/-- The tag map as a chain of equations on the tag. -/
theorem lookupRow_tagRows (t : Byte) :
    lookupRow tagRows t =
      if t = 0x00 then some .hIdle else if t = 0x01 then some .hW0Low else if t = 0x02 then some .hW0Rel
      else if t = 0x03 then some .hW1Low else if t = 0x04 then some .hW1Rel else if t = 0x05 then some .hRdLow
      else if t = 0x06 then some .hRdSample else if t = 0x07 then some .hRdRel else none := by
  have h : t &&& (0xFF : Byte) = t := BitVec.and_allOnes
  unfold tagRows
  simp only [lookupRow_cons, lookupRow_nil, h]

/-- What a tag decodes to: the eight legal tags and nothing else. -/
theorem decodeTag_ok_cases {t : Byte} {i : Instr} (hd : decodeTag t = .ok i) :
    (t = 0x00 ∧ i = .hIdle) ∨ (t = 0x01 ∧ i = .hW0Low) ∨ (t = 0x02 ∧ i = .hW0Rel) ∨ (t = 0x03 ∧ i = .hW1Low) ∨
      (t = 0x04 ∧ i = .hW1Rel) ∨ (t = 0x05 ∧ i = .hRdLow) ∨ (t = 0x06 ∧ i = .hRdSample) ∨ (t = 0x07 ∧ i = .hRdRel) := by
  unfold decodeTag at hd
  rw [lookupRow_tagRows] at hd
  split at hd
  · rename_i j hj
    cases hd
    split_ifs at hj <;> simp_all
  · cases hd

/-- A tag of 0x08 to 0xFF decodes to nothing (R86). -/
theorem decodeTag_error_iff (t : Byte) : (∃ e, decodeTag t = .error e) ↔ 8 ≤ t.toNat := by
  revert t
  have h : ∀ t : Byte, (match decodeTag t with | .ok _ => true | .error _ => false) = decide (t.toNat < 8) := by decide
  intro t
  have := h t
  cases hd : decodeTag t <;> simp_all

/-- The command opcode map as a chain of conditions on the word. -/
theorem lookupRow_commandRows (w : CmdWord) :
    lookupRow commandRows w =
      if w = 0x0000 then some .nop else if w = 0x1000 then some .init else if w = 0x2000 then some .start
      else if w = 0x3000 then some .armW0 else if w = 0x3001 then some .armW1 else if w = 0x3002 then some .armRd
      else if w = 0x4000 then some .rdState else if w = 0x5000 then some .rdSample else if w = 0x6000 then some .waitIdle
      else if w &&& 0xFFFE = 0x8000 then some (.writeBit (bitOperandOf w)) else if w = 0x9000 then some .readBit
      else if w &&& 0xFF00 = 0xA000 then some (.writeByte (byteOperandOf w)) else if w = 0xB000 then some .readByte
      else none := by
  have h : w &&& (0xFFFF : CmdWord) = w := BitVec.and_allOnes
  unfold commandRows
  simp only [lookupRow_cons, lookupRow_nil, h]

/-- A looked up instruction is built by a row of the table that accepts the word. -/
theorem row_of_lookupRow {n : Nat} {rows : List (Row n)} {w : BitVec n} {i : Instr} (h : lookupRow rows w = some i) :
    ∃ r ∈ rows, w &&& r.mask = r.pattern ∧ r.build w = i := by
  obtain ⟨r, hr, rfl⟩ := Option.map_eq_some_iff.mp h
  exact ⟨r, List.mem_of_find?_eq_some hr, by simpa [Row.accepts] using List.find?_some hr, rfl⟩

/-- The instruction a word decodes to is built by a row of the opcode map that accepts the word. -/
theorem row_of_decodeCommand {w : CmdWord} {i : Instr} (h : decodeCommand w = .ok i) :
    ∃ r ∈ commandRows, w &&& r.mask = r.pattern ∧ r.build w = i := by
  unfold decodeCommand at h
  split at h
  · rename_i j hj
    cases h
    exact row_of_lookupRow hj
  · cases h

/-- A command word never decodes to a micro-step. -/
theorem isCommand_of_decodeCommand {w : CmdWord} {i : Instr} (h : decodeCommand w = .ok i) : i.isCommand = true := by
  obtain ⟨r, hr, -, rfl⟩ := row_of_decodeCommand h
  have hall : ∀ r ∈ commandRows, ∀ w, (r.build w).isCommand = true := by simp [commandRows, Instr.isCommand]
  exact hall r hr w

/-- The two words the row of WRITE_BIT accepts. -/
theorem word_of_writeBit_mask {w : CmdWord} (h : w &&& 0xFFFE = 0x8000) : w = 0x8000 ∨ w = 0x8001 := by
  have hw : ∀ i, i < 16 → i ≠ 0 → w.getLsbD i = (0x8000 : CmdWord).getLsbD i := by
    intro i hi h0
    have hb : (w &&& 0xFFFE).getLsbD i = (0x8000 : CmdWord).getLsbD i := by rw [h]
    have hm : (0xFFFE : CmdWord).getLsbD i = true := by
      interval_cases i <;> first | rfl | exact absurd rfl h0
    rwa [BitVec.getLsbD_and, hm, Bool.and_true] at hb
  cases h0 : w.getLsbD 0 with
  | false =>
    left
    apply BitVec.eq_of_getLsbD_eq
    intro i hi
    by_cases hi0 : i = 0
    · subst hi0
      rw [h0]
      rfl
    · exact hw i hi hi0
  | true =>
    right
    apply BitVec.eq_of_getLsbD_eq
    intro i hi
    by_cases hi0 : i = 0
    · subst hi0
      rw [h0]
      rfl
    · rw [hw i hi hi0]
      interval_cases i <;> first | rfl | exact absurd rfl hi0

/-- Only the word 0x1000 is INIT. -/
theorem word_of_decodeCommand_init {w : CmdWord} (h : decodeCommand w = .ok .init) : w = 0x1000 := by
  obtain ⟨r, hr, hm, hb⟩ := row_of_decodeCommand h
  have hall : ∀ r ∈ commandRows, ∀ w, r.build w = .init → r.mask = 0xFFFF ∧ r.pattern = 0x1000 := by simp [commandRows]
  obtain ⟨h1, h2⟩ := hall r hr w hb
  rw [h1, h2] at hm
  exact BitVec.and_allOnes.symm.trans hm

end Sys2Proof
end

