-- ==== Sys2Proof/Laws/State.lean ====
section
/-! SUPPORT. One lemma per field per unconditional update of the state, each true by definition, for simp: no later proof
unfolds a record update. -/

namespace Sys2Proof.Machine

variable (s : State)

/-! `setPending` -/

@[simp] theorem State.setPending_state : (s.setPending).state = s.state := rfl
@[simp] theorem State.setPending_sampled : (s.setPending).sampled = s.sampled := rfl
@[simp] theorem State.setPending_cnt : (s.setPending).cnt = s.cnt := rfl
@[simp] theorem State.setPending_cmp : (s.setPending).cmp = s.cmp := rfl
@[simp] theorem State.setPending_tRun : (s.setPending).tRun = s.tRun := rfl
@[simp] theorem State.setPending_tPeriodic : (s.setPending).tPeriodic = s.tPeriodic := rfl
@[simp] theorem State.setPending_ie : (s.setPending).ie = s.ie := rfl
@[simp] theorem State.setPending_ip : (s.setPending).ip = true := rfl
@[simp] theorem State.setPending_dir : (s.setPending).dir = s.dir := rfl
@[simp] theorem State.setPending_out : (s.setPending).out = s.out := rfl
@[simp] theorem State.setPending_inited : (s.setPending).inited = s.inited := rfl
@[simp] theorem State.setPending_fault : (s.setPending).fault = s.fault := rfl
@[simp] theorem State.setPending_act : (s.setPending).act = s.act := rfl
@[simp] theorem State.setPending_port : (s.setPending).port = s.port := rfl
@[simp] theorem State.setPending_rsp : (s.setPending).rsp = s.rsp := rfl
@[simp] theorem State.setPending_k : (s.setPending).k = s.k := rfl
@[simp] theorem State.setPending_diag : (s.setPending).diag = s.diag := rfl
@[simp] theorem State.setPending_env : (s.setPending).env = s.env := rfl
@[simp] theorem State.setPending_cfg : (s.setPending).cfg = s.cfg := rfl

/-! `clearPending` -/

@[simp] theorem State.clearPending_state : (s.clearPending).state = s.state := rfl
@[simp] theorem State.clearPending_sampled : (s.clearPending).sampled = s.sampled := rfl
@[simp] theorem State.clearPending_cnt : (s.clearPending).cnt = s.cnt := rfl
@[simp] theorem State.clearPending_cmp : (s.clearPending).cmp = s.cmp := rfl
@[simp] theorem State.clearPending_tRun : (s.clearPending).tRun = s.tRun := rfl
@[simp] theorem State.clearPending_tPeriodic : (s.clearPending).tPeriodic = s.tPeriodic := rfl
@[simp] theorem State.clearPending_ie : (s.clearPending).ie = s.ie := rfl
@[simp] theorem State.clearPending_ip : (s.clearPending).ip = false := rfl
@[simp] theorem State.clearPending_dir : (s.clearPending).dir = s.dir := rfl
@[simp] theorem State.clearPending_out : (s.clearPending).out = s.out := rfl
@[simp] theorem State.clearPending_inited : (s.clearPending).inited = s.inited := rfl
@[simp] theorem State.clearPending_fault : (s.clearPending).fault = s.fault := rfl
@[simp] theorem State.clearPending_act : (s.clearPending).act = s.act := rfl
@[simp] theorem State.clearPending_port : (s.clearPending).port = s.port := rfl
@[simp] theorem State.clearPending_rsp : (s.clearPending).rsp = s.rsp := rfl
@[simp] theorem State.clearPending_k : (s.clearPending).k = s.k := rfl
@[simp] theorem State.clearPending_diag : (s.clearPending).diag = s.diag := rfl
@[simp] theorem State.clearPending_env : (s.clearPending).env = s.env := rfl
@[simp] theorem State.clearPending_cfg : (s.clearPending).cfg = s.cfg := rfl

/-! `takeInterrupt` -/

@[simp] theorem State.takeInterrupt_state : (s.takeInterrupt).state = s.state := rfl
@[simp] theorem State.takeInterrupt_sampled : (s.takeInterrupt).sampled = s.sampled := rfl
@[simp] theorem State.takeInterrupt_cnt : (s.takeInterrupt).cnt = s.cnt := rfl
@[simp] theorem State.takeInterrupt_cmp : (s.takeInterrupt).cmp = s.cmp := rfl
@[simp] theorem State.takeInterrupt_tRun : (s.takeInterrupt).tRun = s.tRun := rfl
@[simp] theorem State.takeInterrupt_tPeriodic : (s.takeInterrupt).tPeriodic = s.tPeriodic := rfl
@[simp] theorem State.takeInterrupt_ie : (s.takeInterrupt).ie = s.ie := rfl
@[simp] theorem State.takeInterrupt_ip : (s.takeInterrupt).ip = false := rfl
@[simp] theorem State.takeInterrupt_dir : (s.takeInterrupt).dir = s.dir := rfl
@[simp] theorem State.takeInterrupt_out : (s.takeInterrupt).out = s.out := rfl
@[simp] theorem State.takeInterrupt_inited : (s.takeInterrupt).inited = s.inited := rfl
@[simp] theorem State.takeInterrupt_fault : (s.takeInterrupt).fault = s.fault := rfl
@[simp] theorem State.takeInterrupt_act : (s.takeInterrupt).act = s.act := rfl
@[simp] theorem State.takeInterrupt_port : (s.takeInterrupt).port = s.port := rfl
@[simp] theorem State.takeInterrupt_rsp : (s.takeInterrupt).rsp = s.rsp := rfl
@[simp] theorem State.takeInterrupt_k : (s.takeInterrupt).k = s.k := rfl
@[simp] theorem State.takeInterrupt_diag : (s.takeInterrupt).diag = s.diag := rfl
@[simp] theorem State.takeInterrupt_env : (s.takeInterrupt).env = s.env := rfl
@[simp] theorem State.takeInterrupt_cfg : (s.takeInterrupt).cfg = s.cfg := rfl

/-! `endInterrupt` -/

@[simp] theorem State.endInterrupt_state : (s.endInterrupt).state = s.state := rfl
@[simp] theorem State.endInterrupt_sampled : (s.endInterrupt).sampled = s.sampled := rfl
@[simp] theorem State.endInterrupt_cnt : (s.endInterrupt).cnt = s.cnt := rfl
@[simp] theorem State.endInterrupt_cmp : (s.endInterrupt).cmp = s.cmp := rfl
@[simp] theorem State.endInterrupt_tRun : (s.endInterrupt).tRun = s.tRun := rfl
@[simp] theorem State.endInterrupt_tPeriodic : (s.endInterrupt).tPeriodic = s.tPeriodic := rfl
@[simp] theorem State.endInterrupt_ie : (s.endInterrupt).ie = s.ie := rfl
@[simp] theorem State.endInterrupt_ip : (s.endInterrupt).ip = s.ip := rfl
@[simp] theorem State.endInterrupt_dir : (s.endInterrupt).dir = s.dir := rfl
@[simp] theorem State.endInterrupt_out : (s.endInterrupt).out = s.out := rfl
@[simp] theorem State.endInterrupt_inited : (s.endInterrupt).inited = s.inited := rfl
@[simp] theorem State.endInterrupt_fault : (s.endInterrupt).fault = s.fault := rfl
@[simp] theorem State.endInterrupt_act : (s.endInterrupt).act = s.act := rfl
@[simp] theorem State.endInterrupt_port : (s.endInterrupt).port = s.port := rfl
@[simp] theorem State.endInterrupt_rsp : (s.endInterrupt).rsp = s.rsp := rfl
@[simp] theorem State.endInterrupt_k : (s.endInterrupt).k = s.k := rfl
@[simp] theorem State.endInterrupt_diag : (s.endInterrupt).diag = s.diag := rfl
@[simp] theorem State.endInterrupt_env : (s.endInterrupt).env = s.env := rfl
@[simp] theorem State.endInterrupt_cfg : (s.endInterrupt).cfg = s.cfg := rfl

/-! `pinConfig` -/

@[simp] theorem State.pinConfig_state : (s.pinConfig).state = s.state := rfl
@[simp] theorem State.pinConfig_sampled : (s.pinConfig).sampled = s.sampled := rfl
@[simp] theorem State.pinConfig_cnt : (s.pinConfig).cnt = s.cnt := rfl
@[simp] theorem State.pinConfig_cmp : (s.pinConfig).cmp = s.cmp := rfl
@[simp] theorem State.pinConfig_tRun : (s.pinConfig).tRun = s.tRun := rfl
@[simp] theorem State.pinConfig_tPeriodic : (s.pinConfig).tPeriodic = s.tPeriodic := rfl
@[simp] theorem State.pinConfig_ie : (s.pinConfig).ie = s.ie := rfl
@[simp] theorem State.pinConfig_ip : (s.pinConfig).ip = s.ip := rfl
@[simp] theorem State.pinConfig_dir : (s.pinConfig).dir = false := rfl
@[simp] theorem State.pinConfig_out : (s.pinConfig).out = false := rfl
@[simp] theorem State.pinConfig_inited : (s.pinConfig).inited = s.inited := rfl
@[simp] theorem State.pinConfig_fault : (s.pinConfig).fault = s.fault := rfl
@[simp] theorem State.pinConfig_act : (s.pinConfig).act = s.act := rfl
@[simp] theorem State.pinConfig_port : (s.pinConfig).port = s.port := rfl
@[simp] theorem State.pinConfig_rsp : (s.pinConfig).rsp = s.rsp := rfl
@[simp] theorem State.pinConfig_k : (s.pinConfig).k = s.k := rfl
@[simp] theorem State.pinConfig_diag : (s.pinConfig).diag = s.diag := rfl
@[simp] theorem State.pinConfig_env : (s.pinConfig).env = s.env := rfl
@[simp] theorem State.pinConfig_cfg : (s.pinConfig).cfg = s.cfg := rfl

/-! `pinAssertLow` -/

@[simp] theorem State.pinAssertLow_state : (s.pinAssertLow).state = s.state := rfl
@[simp] theorem State.pinAssertLow_sampled : (s.pinAssertLow).sampled = s.sampled := rfl
@[simp] theorem State.pinAssertLow_cnt : (s.pinAssertLow).cnt = s.cnt := rfl
@[simp] theorem State.pinAssertLow_cmp : (s.pinAssertLow).cmp = s.cmp := rfl
@[simp] theorem State.pinAssertLow_tRun : (s.pinAssertLow).tRun = s.tRun := rfl
@[simp] theorem State.pinAssertLow_tPeriodic : (s.pinAssertLow).tPeriodic = s.tPeriodic := rfl
@[simp] theorem State.pinAssertLow_ie : (s.pinAssertLow).ie = s.ie := rfl
@[simp] theorem State.pinAssertLow_ip : (s.pinAssertLow).ip = s.ip := rfl
@[simp] theorem State.pinAssertLow_dir : (s.pinAssertLow).dir = true := rfl
@[simp] theorem State.pinAssertLow_out : (s.pinAssertLow).out = s.out := rfl
@[simp] theorem State.pinAssertLow_inited : (s.pinAssertLow).inited = s.inited := rfl
@[simp] theorem State.pinAssertLow_fault : (s.pinAssertLow).fault = s.fault := rfl
@[simp] theorem State.pinAssertLow_act : (s.pinAssertLow).act = s.act := rfl
@[simp] theorem State.pinAssertLow_port : (s.pinAssertLow).port = s.port := rfl
@[simp] theorem State.pinAssertLow_rsp : (s.pinAssertLow).rsp = s.rsp := rfl
@[simp] theorem State.pinAssertLow_k : (s.pinAssertLow).k = s.k := rfl
@[simp] theorem State.pinAssertLow_diag : (s.pinAssertLow).diag = s.diag := rfl
@[simp] theorem State.pinAssertLow_env : (s.pinAssertLow).env = s.env := rfl
@[simp] theorem State.pinAssertLow_cfg : (s.pinAssertLow).cfg = s.cfg := rfl

/-! `pinRelease` -/

@[simp] theorem State.pinRelease_state : (s.pinRelease).state = s.state := rfl
@[simp] theorem State.pinRelease_sampled : (s.pinRelease).sampled = s.sampled := rfl
@[simp] theorem State.pinRelease_cnt : (s.pinRelease).cnt = s.cnt := rfl
@[simp] theorem State.pinRelease_cmp : (s.pinRelease).cmp = s.cmp := rfl
@[simp] theorem State.pinRelease_tRun : (s.pinRelease).tRun = s.tRun := rfl
@[simp] theorem State.pinRelease_tPeriodic : (s.pinRelease).tPeriodic = s.tPeriodic := rfl
@[simp] theorem State.pinRelease_ie : (s.pinRelease).ie = s.ie := rfl
@[simp] theorem State.pinRelease_ip : (s.pinRelease).ip = s.ip := rfl
@[simp] theorem State.pinRelease_dir : (s.pinRelease).dir = false := rfl
@[simp] theorem State.pinRelease_out : (s.pinRelease).out = s.out := rfl
@[simp] theorem State.pinRelease_inited : (s.pinRelease).inited = s.inited := rfl
@[simp] theorem State.pinRelease_fault : (s.pinRelease).fault = s.fault := rfl
@[simp] theorem State.pinRelease_act : (s.pinRelease).act = s.act := rfl
@[simp] theorem State.pinRelease_port : (s.pinRelease).port = s.port := rfl
@[simp] theorem State.pinRelease_rsp : (s.pinRelease).rsp = s.rsp := rfl
@[simp] theorem State.pinRelease_k : (s.pinRelease).k = s.k := rfl
@[simp] theorem State.pinRelease_diag : (s.pinRelease).diag = s.diag := rfl
@[simp] theorem State.pinRelease_env : (s.pinRelease).env = s.env := rfl
@[simp] theorem State.pinRelease_cfg : (s.pinRelease).cfg = s.cfg := rfl

/-! `tmrReset` -/

@[simp] theorem State.tmrReset_state : (s.tmrReset).state = s.state := rfl
@[simp] theorem State.tmrReset_sampled : (s.tmrReset).sampled = s.sampled := rfl
@[simp] theorem State.tmrReset_cnt : (s.tmrReset).cnt = 0 := rfl
@[simp] theorem State.tmrReset_cmp : (s.tmrReset).cmp = s.cmp := rfl
@[simp] theorem State.tmrReset_tRun : (s.tmrReset).tRun = s.tRun := rfl
@[simp] theorem State.tmrReset_tPeriodic : (s.tmrReset).tPeriodic = s.tPeriodic := rfl
@[simp] theorem State.tmrReset_ie : (s.tmrReset).ie = s.ie := rfl
@[simp] theorem State.tmrReset_ip : (s.tmrReset).ip = s.ip := rfl
@[simp] theorem State.tmrReset_dir : (s.tmrReset).dir = s.dir := rfl
@[simp] theorem State.tmrReset_out : (s.tmrReset).out = s.out := rfl
@[simp] theorem State.tmrReset_inited : (s.tmrReset).inited = s.inited := rfl
@[simp] theorem State.tmrReset_fault : (s.tmrReset).fault = s.fault := rfl
@[simp] theorem State.tmrReset_act : (s.tmrReset).act = s.act := rfl
@[simp] theorem State.tmrReset_port : (s.tmrReset).port = s.port := rfl
@[simp] theorem State.tmrReset_rsp : (s.tmrReset).rsp = s.rsp := rfl
@[simp] theorem State.tmrReset_k : (s.tmrReset).k = s.k := rfl
@[simp] theorem State.tmrReset_diag : (s.tmrReset).diag = s.diag := rfl
@[simp] theorem State.tmrReset_env : (s.tmrReset).env = s.env := rfl
@[simp] theorem State.tmrReset_cfg : (s.tmrReset).cfg = s.cfg := rfl

/-! `tmrSetCompare` -/

@[simp] theorem State.tmrSetCompare_state (n : Nat) : (s.tmrSetCompare n).state = s.state := rfl
@[simp] theorem State.tmrSetCompare_sampled (n : Nat) : (s.tmrSetCompare n).sampled = s.sampled := rfl
@[simp] theorem State.tmrSetCompare_cnt (n : Nat) : (s.tmrSetCompare n).cnt = s.cnt := rfl
@[simp] theorem State.tmrSetCompare_cmp (n : Nat) : (s.tmrSetCompare n).cmp = n := rfl
@[simp] theorem State.tmrSetCompare_tRun (n : Nat) : (s.tmrSetCompare n).tRun = s.tRun := rfl
@[simp] theorem State.tmrSetCompare_tPeriodic (n : Nat) : (s.tmrSetCompare n).tPeriodic = s.tPeriodic := rfl
@[simp] theorem State.tmrSetCompare_ie (n : Nat) : (s.tmrSetCompare n).ie = s.ie := rfl
@[simp] theorem State.tmrSetCompare_ip (n : Nat) : (s.tmrSetCompare n).ip = s.ip := rfl
@[simp] theorem State.tmrSetCompare_dir (n : Nat) : (s.tmrSetCompare n).dir = s.dir := rfl
@[simp] theorem State.tmrSetCompare_out (n : Nat) : (s.tmrSetCompare n).out = s.out := rfl
@[simp] theorem State.tmrSetCompare_inited (n : Nat) : (s.tmrSetCompare n).inited = s.inited := rfl
@[simp] theorem State.tmrSetCompare_fault (n : Nat) : (s.tmrSetCompare n).fault = s.fault := rfl
@[simp] theorem State.tmrSetCompare_act (n : Nat) : (s.tmrSetCompare n).act = s.act := rfl
@[simp] theorem State.tmrSetCompare_port (n : Nat) : (s.tmrSetCompare n).port = s.port := rfl
@[simp] theorem State.tmrSetCompare_rsp (n : Nat) : (s.tmrSetCompare n).rsp = s.rsp := rfl
@[simp] theorem State.tmrSetCompare_k (n : Nat) : (s.tmrSetCompare n).k = s.k := rfl
@[simp] theorem State.tmrSetCompare_diag (n : Nat) : (s.tmrSetCompare n).diag = s.diag := rfl
@[simp] theorem State.tmrSetCompare_env (n : Nat) : (s.tmrSetCompare n).env = s.env := rfl
@[simp] theorem State.tmrSetCompare_cfg (n : Nat) : (s.tmrSetCompare n).cfg = s.cfg := rfl

/-! `tmrStart` -/

@[simp] theorem State.tmrStart_state : (s.tmrStart).state = s.state := rfl
@[simp] theorem State.tmrStart_sampled : (s.tmrStart).sampled = s.sampled := rfl
@[simp] theorem State.tmrStart_cnt : (s.tmrStart).cnt = s.cnt := rfl
@[simp] theorem State.tmrStart_cmp : (s.tmrStart).cmp = s.cmp := rfl
@[simp] theorem State.tmrStart_tRun : (s.tmrStart).tRun = true := rfl
@[simp] theorem State.tmrStart_tPeriodic : (s.tmrStart).tPeriodic = s.tPeriodic := rfl
@[simp] theorem State.tmrStart_ie : (s.tmrStart).ie = s.ie := rfl
@[simp] theorem State.tmrStart_ip : (s.tmrStart).ip = s.ip := rfl
@[simp] theorem State.tmrStart_dir : (s.tmrStart).dir = s.dir := rfl
@[simp] theorem State.tmrStart_out : (s.tmrStart).out = s.out := rfl
@[simp] theorem State.tmrStart_inited : (s.tmrStart).inited = s.inited := rfl
@[simp] theorem State.tmrStart_fault : (s.tmrStart).fault = s.fault := rfl
@[simp] theorem State.tmrStart_act : (s.tmrStart).act = s.act := rfl
@[simp] theorem State.tmrStart_port : (s.tmrStart).port = s.port := rfl
@[simp] theorem State.tmrStart_rsp : (s.tmrStart).rsp = s.rsp := rfl
@[simp] theorem State.tmrStart_k : (s.tmrStart).k = s.k := rfl
@[simp] theorem State.tmrStart_diag : (s.tmrStart).diag = s.diag := rfl
@[simp] theorem State.tmrStart_env : (s.tmrStart).env = s.env := rfl
@[simp] theorem State.tmrStart_cfg : (s.tmrStart).cfg = s.cfg := rfl

/-! `tmrConfig` -/

@[simp] theorem State.tmrConfig_state : (s.tmrConfig).state = s.state := rfl
@[simp] theorem State.tmrConfig_sampled : (s.tmrConfig).sampled = s.sampled := rfl
@[simp] theorem State.tmrConfig_cnt : (s.tmrConfig).cnt = s.cnt := rfl
@[simp] theorem State.tmrConfig_cmp : (s.tmrConfig).cmp = s.cmp := rfl
@[simp] theorem State.tmrConfig_tRun : (s.tmrConfig).tRun = s.cfg.initRun := rfl
@[simp] theorem State.tmrConfig_tPeriodic : (s.tmrConfig).tPeriodic = true := rfl
@[simp] theorem State.tmrConfig_ie : (s.tmrConfig).ie = true := rfl
@[simp] theorem State.tmrConfig_ip : (s.tmrConfig).ip = s.ip := rfl
@[simp] theorem State.tmrConfig_dir : (s.tmrConfig).dir = s.dir := rfl
@[simp] theorem State.tmrConfig_out : (s.tmrConfig).out = s.out := rfl
@[simp] theorem State.tmrConfig_inited : (s.tmrConfig).inited = s.inited := rfl
@[simp] theorem State.tmrConfig_fault : (s.tmrConfig).fault = s.fault := rfl
@[simp] theorem State.tmrConfig_act : (s.tmrConfig).act = s.act := rfl
@[simp] theorem State.tmrConfig_port : (s.tmrConfig).port = s.port := rfl
@[simp] theorem State.tmrConfig_rsp : (s.tmrConfig).rsp = s.rsp := rfl
@[simp] theorem State.tmrConfig_k : (s.tmrConfig).k = s.k := rfl
@[simp] theorem State.tmrConfig_diag : (s.tmrConfig).diag = s.diag := rfl
@[simp] theorem State.tmrConfig_env : (s.tmrConfig).env = s.env := rfl
@[simp] theorem State.tmrConfig_cfg : (s.tmrConfig).cfg = s.cfg := rfl

/-! `goto` -/

@[simp] theorem State.goto_state (tg : Tag) : (s.goto tg).state = tg.code := rfl
@[simp] theorem State.goto_sampled (tg : Tag) : (s.goto tg).sampled = s.sampled := rfl
@[simp] theorem State.goto_cnt (tg : Tag) : (s.goto tg).cnt = s.cnt := rfl
@[simp] theorem State.goto_cmp (tg : Tag) : (s.goto tg).cmp = s.cmp := rfl
@[simp] theorem State.goto_tRun (tg : Tag) : (s.goto tg).tRun = s.tRun := rfl
@[simp] theorem State.goto_tPeriodic (tg : Tag) : (s.goto tg).tPeriodic = s.tPeriodic := rfl
@[simp] theorem State.goto_ie (tg : Tag) : (s.goto tg).ie = s.ie := rfl
@[simp] theorem State.goto_ip (tg : Tag) : (s.goto tg).ip = s.ip := rfl
@[simp] theorem State.goto_dir (tg : Tag) : (s.goto tg).dir = s.dir := rfl
@[simp] theorem State.goto_out (tg : Tag) : (s.goto tg).out = s.out := rfl
@[simp] theorem State.goto_inited (tg : Tag) : (s.goto tg).inited = s.inited := rfl
@[simp] theorem State.goto_fault (tg : Tag) : (s.goto tg).fault = s.fault := rfl
@[simp] theorem State.goto_act (tg : Tag) : (s.goto tg).act = s.act := rfl
@[simp] theorem State.goto_port (tg : Tag) : (s.goto tg).port = s.port := rfl
@[simp] theorem State.goto_rsp (tg : Tag) : (s.goto tg).rsp = s.rsp := rfl
@[simp] theorem State.goto_k (tg : Tag) : (s.goto tg).k = s.k := rfl
@[simp] theorem State.goto_diag (tg : Tag) : (s.goto tg).diag = s.diag := rfl
@[simp] theorem State.goto_env (tg : Tag) : (s.goto tg).env = s.env := rfl
@[simp] theorem State.goto_cfg (tg : Tag) : (s.goto tg).cfg = s.cfg := rfl

/-! `respond` -/

@[simp] theorem State.respond_state (r : Byte) : (s.respond r).state = s.state := rfl
@[simp] theorem State.respond_sampled (r : Byte) : (s.respond r).sampled = s.sampled := rfl
@[simp] theorem State.respond_cnt (r : Byte) : (s.respond r).cnt = s.cnt := rfl
@[simp] theorem State.respond_cmp (r : Byte) : (s.respond r).cmp = s.cmp := rfl
@[simp] theorem State.respond_tRun (r : Byte) : (s.respond r).tRun = s.tRun := rfl
@[simp] theorem State.respond_tPeriodic (r : Byte) : (s.respond r).tPeriodic = s.tPeriodic := rfl
@[simp] theorem State.respond_ie (r : Byte) : (s.respond r).ie = s.ie := rfl
@[simp] theorem State.respond_ip (r : Byte) : (s.respond r).ip = s.ip := rfl
@[simp] theorem State.respond_dir (r : Byte) : (s.respond r).dir = s.dir := rfl
@[simp] theorem State.respond_out (r : Byte) : (s.respond r).out = s.out := rfl
@[simp] theorem State.respond_inited (r : Byte) : (s.respond r).inited = s.inited := rfl
@[simp] theorem State.respond_fault (r : Byte) : (s.respond r).fault = s.fault := rfl
@[simp] theorem State.respond_act (r : Byte) : (s.respond r).act = s.act := rfl
@[simp] theorem State.respond_port (r : Byte) : (s.respond r).port = s.port := rfl
@[simp] theorem State.respond_rsp (r : Byte) : (s.respond r).rsp = some r := rfl
@[simp] theorem State.respond_k (r : Byte) : (s.respond r).k = s.k := rfl
@[simp] theorem State.respond_diag (r : Byte) : (s.respond r).diag = s.diag := rfl
@[simp] theorem State.respond_env (r : Byte) : (s.respond r).env = s.env := rfl
@[simp] theorem State.respond_cfg (r : Byte) : (s.respond r).cfg = s.cfg := rfl

/-! `sampleLine` -/

@[simp] theorem State.sampleLine_state : (s.sampleLine).state = s.state := rfl
@[simp] theorem State.sampleLine_sampled : (s.sampleLine).sampled = s.line := rfl
@[simp] theorem State.sampleLine_cnt : (s.sampleLine).cnt = s.cnt := rfl
@[simp] theorem State.sampleLine_cmp : (s.sampleLine).cmp = s.cmp := rfl
@[simp] theorem State.sampleLine_tRun : (s.sampleLine).tRun = s.tRun := rfl
@[simp] theorem State.sampleLine_tPeriodic : (s.sampleLine).tPeriodic = s.tPeriodic := rfl
@[simp] theorem State.sampleLine_ie : (s.sampleLine).ie = s.ie := rfl
@[simp] theorem State.sampleLine_ip : (s.sampleLine).ip = s.ip := rfl
@[simp] theorem State.sampleLine_dir : (s.sampleLine).dir = s.dir := rfl
@[simp] theorem State.sampleLine_out : (s.sampleLine).out = s.out := rfl
@[simp] theorem State.sampleLine_inited : (s.sampleLine).inited = s.inited := rfl
@[simp] theorem State.sampleLine_fault : (s.sampleLine).fault = s.fault := rfl
@[simp] theorem State.sampleLine_act : (s.sampleLine).act = s.act := rfl
@[simp] theorem State.sampleLine_port : (s.sampleLine).port = s.port := rfl
@[simp] theorem State.sampleLine_rsp : (s.sampleLine).rsp = s.rsp := rfl
@[simp] theorem State.sampleLine_k : (s.sampleLine).k = s.k := rfl
@[simp] theorem State.sampleLine_diag : (s.sampleLine).diag = s.diag := rfl
@[simp] theorem State.sampleLine_env : (s.sampleLine).env = s.env := rfl
@[simp] theorem State.sampleLine_cfg : (s.sampleLine).cfg = s.cfg := rfl

/-! `armWrites` -/

@[simp] theorem State.armWrites_state (sl : Slot) : (s.armWrites sl).state = sl.tag := rfl
@[simp] theorem State.armWrites_sampled (sl : Slot) : (s.armWrites sl).sampled = s.sampled := rfl
@[simp] theorem State.armWrites_cnt (sl : Slot) : (s.armWrites sl).cnt = 0 := rfl
@[simp] theorem State.armWrites_cmp (sl : Slot) : (s.armWrites sl).cmp = sl.delay s.cfg := rfl
@[simp] theorem State.armWrites_tRun (sl : Slot) : (s.armWrites sl).tRun = s.tRun := rfl
@[simp] theorem State.armWrites_tPeriodic (sl : Slot) : (s.armWrites sl).tPeriodic = s.tPeriodic := rfl
@[simp] theorem State.armWrites_ie (sl : Slot) : (s.armWrites sl).ie = s.ie := rfl
@[simp] theorem State.armWrites_ip (sl : Slot) : (s.armWrites sl).ip = s.ip := rfl
@[simp] theorem State.armWrites_dir (sl : Slot) : (s.armWrites sl).dir = true := rfl
@[simp] theorem State.armWrites_out (sl : Slot) : (s.armWrites sl).out = s.out := rfl
@[simp] theorem State.armWrites_inited (sl : Slot) : (s.armWrites sl).inited = s.inited := rfl
@[simp] theorem State.armWrites_fault (sl : Slot) : (s.armWrites sl).fault = s.fault := rfl
@[simp] theorem State.armWrites_act (sl : Slot) : (s.armWrites sl).act = s.act := rfl
@[simp] theorem State.armWrites_port (sl : Slot) : (s.armWrites sl).port = s.port := rfl
@[simp] theorem State.armWrites_rsp (sl : Slot) : (s.armWrites sl).rsp = s.rsp := rfl
@[simp] theorem State.armWrites_k (sl : Slot) : (s.armWrites sl).k = s.k := rfl
@[simp] theorem State.armWrites_diag (sl : Slot) : (s.armWrites sl).diag = s.diag := rfl
@[simp] theorem State.armWrites_env (sl : Slot) : (s.armWrites sl).env = s.env := rfl
@[simp] theorem State.armWrites_cfg (sl : Slot) : (s.armWrites sl).cfg = s.cfg := rfl

/-! `initWrites` -/

@[simp] theorem State.initWrites_state : (s.initWrites).state = 0x00 := rfl
@[simp] theorem State.initWrites_sampled : (s.initWrites).sampled = s.sampled := rfl
@[simp] theorem State.initWrites_cnt : (s.initWrites).cnt = s.cnt := rfl
@[simp] theorem State.initWrites_cmp : (s.initWrites).cmp = s.cmp := rfl
@[simp] theorem State.initWrites_tRun : (s.initWrites).tRun = s.cfg.initRun := rfl
@[simp] theorem State.initWrites_tPeriodic : (s.initWrites).tPeriodic = true := rfl
@[simp] theorem State.initWrites_ie : (s.initWrites).ie = true := rfl
@[simp] theorem State.initWrites_ip : (s.initWrites).ip = s.ip := rfl
@[simp] theorem State.initWrites_dir : (s.initWrites).dir = false := rfl
@[simp] theorem State.initWrites_out : (s.initWrites).out = false := rfl
@[simp] theorem State.initWrites_inited : (s.initWrites).inited = true := rfl
@[simp] theorem State.initWrites_fault : (s.initWrites).fault = s.fault := rfl
@[simp] theorem State.initWrites_act : (s.initWrites).act = s.act := rfl
@[simp] theorem State.initWrites_port : (s.initWrites).port = s.port := rfl
@[simp] theorem State.initWrites_rsp : (s.initWrites).rsp = s.rsp := rfl
@[simp] theorem State.initWrites_k : (s.initWrites).k = s.k := rfl
@[simp] theorem State.initWrites_diag : (s.initWrites).diag = s.diag := rfl
@[simp] theorem State.initWrites_env : (s.initWrites).env = s.env := rfl
@[simp] theorem State.initWrites_cfg : (s.initWrites).cfg = s.cfg := rfl

/-! `issue` -/

@[simp] theorem State.issue_state (r : List HostItem) : (s.issue r).state = s.state := rfl
@[simp] theorem State.issue_sampled (r : List HostItem) : (s.issue r).sampled = s.sampled := rfl
@[simp] theorem State.issue_cnt (r : List HostItem) : (s.issue r).cnt = s.cnt := rfl
@[simp] theorem State.issue_cmp (r : List HostItem) : (s.issue r).cmp = s.cmp := rfl
@[simp] theorem State.issue_tRun (r : List HostItem) : (s.issue r).tRun = s.tRun := rfl
@[simp] theorem State.issue_tPeriodic (r : List HostItem) : (s.issue r).tPeriodic = s.tPeriodic := rfl
@[simp] theorem State.issue_ie (r : List HostItem) : (s.issue r).ie = s.ie := rfl
@[simp] theorem State.issue_ip (r : List HostItem) : (s.issue r).ip = s.ip := rfl
@[simp] theorem State.issue_dir (r : List HostItem) : (s.issue r).dir = s.dir := rfl
@[simp] theorem State.issue_out (r : List HostItem) : (s.issue r).out = s.out := rfl
@[simp] theorem State.issue_inited (r : List HostItem) : (s.issue r).inited = s.inited := rfl
@[simp] theorem State.issue_fault (r : List HostItem) : (s.issue r).fault = s.fault := rfl
@[simp] theorem State.issue_act (r : List HostItem) : (s.issue r).act = s.act := rfl
@[simp] theorem State.issue_port (r : List HostItem) : (s.issue r).port = r := rfl
@[simp] theorem State.issue_rsp (r : List HostItem) : (s.issue r).rsp = none := rfl
@[simp] theorem State.issue_k (r : List HostItem) : (s.issue r).k = s.k := rfl
@[simp] theorem State.issue_diag (r : List HostItem) : (s.issue r).diag = s.diag := rfl
@[simp] theorem State.issue_env (r : List HostItem) : (s.issue r).env = s.env := rfl
@[simp] theorem State.issue_cfg (r : List HostItem) : (s.issue r).cfg = s.cfg := rfl

end Sys2Proof.Machine
end

