-- ==== Sys2Proof/Laws/Ops.lean ====
section
/-! SUPPORT. What each shared operation can do, said once: recording a fault, the decoder's checks, arming, TICK, the
passing of a boundary, the wire. -/

namespace Sys2Proof.Machine

/-- The flat forms of the composed writes. -/
theorem State.armWrites_eq (s : State) (sl : Slot) :
    s.armWrites sl = { s with cnt := 0, cmp := sl.delay s.cfg, state := sl.tag, dir := true } := rfl

theorem State.initWrites_eq (s : State) :
    s.initWrites = { s with
      state := 0x00, dir := false, out := false, tPeriodic := true, ie := true, tRun := s.cfg.initRun, inited := true } :=
  rfl

theorem State.raise_of_noFault {s : State} (h : s.fault = 0) (c : FaultCode) (info : BitVec 16) :
    s.raise c info = { s with fault := c.bits, diag := some info } := by
  simp [State.raise, h]

theorem State.raise_of_fault {s : State} (h : s.fault ≠ 0) (c : FaultCode) (info : BitVec 16) : s.raise c info = s :=
  if_neg h

/-- Everything `raise` can do. -/
theorem State.raise_cases (s : State) (c : FaultCode) (info : BitVec 16) :
    (s.fault ≠ 0 ∧ s.raise c info = s) ∨
      (s.fault = 0 ∧ s.raise c info = { s with fault := c.bits, diag := some info }) := by
  by_cases h : s.fault = 0
  · exact .inr ⟨h, State.raise_of_noFault h c info⟩
  · exact .inl ⟨h, State.raise_of_fault h c info⟩

theorem State.command_of_fault {s : State} (h : s.fault ≠ 0) (w : CmdWord) (body : State → State) :
    s.command w body = s :=
  if_neg h

theorem State.command_of_inited {s : State} (h : s.fault = 0) (hi : s.inited = true) (w : CmdWord)
    (body : State → State) : s.command w body = body s := by
  simp [State.command, State.unlessFaulted, h, hi]

theorem State.command_of_not_inited {s : State} (h : s.fault = 0) (hi : s.inited = false) (w : CmdWord)
    (body : State → State) : s.command w body = { s with fault := 2, diag := some w } := by
  simp [State.command, State.unlessFaulted, State.raise, FaultCode.bits, h, hi]

/-- Everything the decoder's checks can do before a command other than NOP and INIT (R91). -/
theorem State.command_cases (s : State) (w : CmdWord) (body : State → State) :
    (s.fault ≠ 0 ∧ s.command w body = s) ∨
      (s.fault = 0 ∧ s.inited = false ∧ s.command w body = { s with fault := 2, diag := some w }) ∨
      (s.fault = 0 ∧ s.inited = true ∧ s.command w body = body s) := by
  by_cases h : s.fault = 0
  · by_cases hi : s.inited = true
    · exact .inr (.inr ⟨h, hi, State.command_of_inited h hi w body⟩)
    · have hi : s.inited = false := by simpa using hi
      exact .inr (.inl ⟨h, hi, State.command_of_not_inited h hi w body⟩)
  · exact .inl ⟨h, State.command_of_fault h w body⟩

@[simp] theorem State.isIdle_iff (s : State) : s.isIdle = true ↔ s.state = 0x00 := by
  simp [State.isIdle, Tag.code]

@[simp] theorem State.isIdle_eq_false_iff (s : State) : s.isIdle = false ↔ s.state ≠ 0x00 := by
  simp [State.isIdle, Tag.code]

/-- Arming in Idle (R180). -/
theorem State.arm_of_idle {s : State} (h : s.state = 0x00) (sl : Slot) (next : HostAct) :
    s.arm sl next = { s with cnt := 0, cmp := sl.delay s.cfg, state := sl.tag, dir := true, act := next } := by
  simp [State.arm, h, State.armWrites_eq]

/-- Arming while an operation is in flight (R244). -/
theorem State.arm_of_busy {s : State} (hf : s.fault = 0) (h : s.state ≠ 0x00) (sl : Slot) (next : HostAct) :
    s.arm sl next = { s with fault := 3, diag := some (s.state.setWidth 16), act := .idle } := by
  have : s.isIdle = false := by simpa using h
  simp [State.arm, this, State.raise_of_noFault hf, FaultCode.bits]

@[simp] theorem Slot.tag_writeZero : Slot.writeZero.tag = 0x01 := rfl
@[simp] theorem Slot.tag_writeOne : Slot.writeOne.tag = 0x03 := rfl
@[simp] theorem Slot.tag_read : Slot.read.tag = 0x05 := rfl
@[simp] theorem Slot.delay_writeZero (c : Config) : Slot.writeZero.delay c = c.w0Low := rfl
@[simp] theorem Slot.delay_writeOne (c : Config) : Slot.writeOne.delay c = c.a := rfl
@[simp] theorem Slot.delay_read (c : Config) : Slot.read.delay c = c.a := rfl

/-- Every armed tag is one of the three Low tags. -/
theorem Slot.tag_cases (sl : Slot) : sl.tag = 0x01 ∨ sl.tag = 0x03 ∨ sl.tag = 0x05 := by cases sl <;> simp

/-- An initial delay can be programmed (R7). -/
theorem Slot.delay_fits (c : Config) (sl : Slot) : DelayFits c.w (sl.delay c) := by
  obtain ⟨_, ha, _, _, _, _, _, hw0⟩ := c.ok
  cases sl
  · exact hw0
  · exact ha
  · exact ha

/-- TICK at a match (R130). -/
theorem State.tick_of_match {s : State} (h : (s.cnt + 1) % 2 ^ s.cfg.w = s.cmp) :
    s.tick = { s with cnt := 0, ip := true } := by
  simp [State.tick, State.nextCount, h, State.setPending]

/-- TICK without a match (R130). -/
theorem State.tick_of_no_match {s : State} (h : (s.cnt + 1) % 2 ^ s.cfg.w ≠ s.cmp) :
    s.tick = { s with cnt := (s.cnt + 1) % 2 ^ s.cfg.w } := by
  simp [State.tick, State.nextCount, h]

/-- Everything the passing of a boundary can do (R130, R136). -/
theorem State.passBoundary_cases (s : State) :
    (s.tickEnabled = false ∧ s.passBoundary = .next { s with k := s.k + 1 }) ∨
      (s.tickEnabled = true ∧ s.tPeriodic = false ∧ s.passBoundary = .fault .timerNotPeriodic) ∨
      (s.tickEnabled = true ∧ s.tPeriodic = true ∧ (s.cnt + 1) % 2 ^ s.cfg.w = s.cmp ∧
        s.passBoundary = .next { s with k := s.k + 1, cnt := 0, ip := true }) ∨
      (s.tickEnabled = true ∧ s.tPeriodic = true ∧ (s.cnt + 1) % 2 ^ s.cfg.w ≠ s.cmp ∧
        s.passBoundary = .next { s with k := s.k + 1, cnt := (s.cnt + 1) % 2 ^ s.cfg.w }) := by
  unfold State.passBoundary
  by_cases h : s.tickEnabled = true
  · by_cases hp : s.tPeriodic = true
    · by_cases hm : (s.cnt + 1) % 2 ^ s.cfg.w = s.cmp
      · refine .inr (.inr (.inl ⟨h, hp, hm, ?_⟩))
        exact (if_pos h).trans ((if_pos hp).trans (congrArg _ (State.tick_of_match (s := { s with k := s.k + 1 }) hm)))
      · refine .inr (.inr (.inr ⟨h, hp, hm, ?_⟩))
        exact (if_pos h).trans ((if_pos hp).trans (congrArg _ (State.tick_of_no_match (s := { s with k := s.k + 1 }) hm)))
    · exact .inr (.inl ⟨h, by simpa using hp, (if_pos h).trans (if_neg hp)⟩)
  · exact .inl ⟨by simpa using h, if_neg h⟩

theorem State.tickEnabled_iff (s : State) :
    s.tickEnabled = true ↔ s.inited = true ∧ s.fault = 0 ∧ s.tRun = true := by
  simp [State.tickEnabled, and_assoc]

theorem State.serviceEnabled_iff (s : State) :
    s.serviceEnabled = true ↔ s.inited = true ∧ s.fault = 0 ∧ s.ip = true ∧ s.ie = true := by
  simp [State.serviceEnabled, and_assoc]

theorem State.serviceEnabled_of_no_pending {s : State} (h : s.ip = false) : s.serviceEnabled = false := by
  simp [State.serviceEnabled, h]

theorem State.pollFindsIdle_iff (s : State) :
    s.pollFindsIdle = true ↔ s.inited = true ∧ s.fault = 0 ∧ s.state = 0x00 := by
  simp [State.pollFindsIdle, and_assoc]

/-- The wire while the master drives low. -/
theorem State.line_of_drives_low {s : State} (hi : s.inited = true) (hf : s.fault = 0) (hd : s.dir = true)
    (ho : s.out = false) : s.line = false := by
  simp [State.line, hi, hf, hd, ho]

/-- The wire while the pin is released. -/
theorem State.line_of_released {s : State} (hi : s.inited = true) (hf : s.fault = 0) (hd : s.dir = false) :
    s.line = !s.devAt s.k := by
  cases h : s.devAt s.k <;> cases ho : s.out <;> simp [State.line, hi, hf, hd, h, ho]

end Sys2Proof.Machine
end

