-- ==== Sys2Proof/Laws/Exec.lean ====
section
/-! SUPPORT. Everything an instruction can do, said once: `CommandEffect` for the thirteen commands, `MicroEffect` for the
eight micro-steps, each with the theorem that `exec` has no other effect. -/

namespace Sys2Proof.Machine

/-- The slot a command arms as its first primitive, and how the host goes on after it. -/
def armsOf : Instr → Option (Slot × HostAct)
  | .armW0 => some (.writeZero, .idle)
  | .armW1 => some (.writeOne, .idle)
  | .armRd => some (.read, .idle)
  | .writeBit v => some (slotOfBit v, .writeBit)
  | .readBit => some (.read, .readBit)
  | .nop | .init | .start | .rdState | .rdSample | .waitIdle | .writeByte _ | .readByte => none
  | .hIdle | .hW0Low | .hW0Rel | .hW1Low | .hW1Rel | .hRdLow | .hRdSample | .hRdRel => none

/-- Only six words decode to a command whose first primitive arms a slot. -/
theorem word_of_arming {w : CmdWord} {i : Instr} {p : Slot × HostAct} (hd : decodeCommand w = .ok i)
    (ha : armsOf i = some p) :
    w = 0x3000 ∨ w = 0x3001 ∨ w = 0x3002 ∨ w = 0x8000 ∨ w = 0x8001 ∨ w = 0x9000 := by
  obtain ⟨r, hr, hm, rfl⟩ := row_of_decodeCommand hd
  have hfull : w &&& (0xFFFF : CmdWord) = w := BitVec.and_allOnes
  simp only [commandRows, List.mem_cons, List.not_mem_nil, or_false] at hr
  rcases hr with rfl | rfl | rfl | rfl | rfl | rfl | rfl | rfl | rfl | rfl | rfl | rfl | rfl <;>
    first
    | exact (word_of_writeBit_mask hm).elim (fun h => by simp [h]) (fun h => by simp [h])
    | (have h := hfull.symm.trans hm; simp [h]; done)
    | cases ha

/-- What a command can do to a state. -/
inductive CommandEffect (s : State) : Instr → State → Prop
  | refused {i : Instr} (hf : s.fault ≠ 0) : CommandEffect s i s
  | beforeInit {i : Instr} (hf : s.fault = 0) (hi : s.inited = false) (h1 : i ≠ .nop) (h2 : i ≠ .init) :
      CommandEffect s i { s with fault := 2, diag := some (wordOf i) }
  | nop (hf : s.fault = 0) : CommandEffect s .nop s
  | init (hf : s.fault = 0) (h : s.inited = false ∨ s.state = 0x00) :
      CommandEffect s .init { s with
        state := 0x00, dir := false, out := false, tPeriodic := true, ie := true, tRun := s.cfg.initRun, inited := true }
  | initInflight (hf : s.fault = 0) (hi : s.inited = true) (h : s.state ≠ 0x00) :
      CommandEffect s .init { s with fault := 4, diag := some (s.state.setWidth 16) }
  | start (hf : s.fault = 0) (hi : s.inited = true) : CommandEffect s .start { s with tRun := true }
  | armed {i : Instr} {sl : Slot} {a : HostAct} (hf : s.fault = 0) (hi : s.inited = true) (h : s.state = 0x00)
      (ha : armsOf i = some (sl, a)) :
      CommandEffect s i { s with cnt := 0, cmp := sl.delay s.cfg, state := sl.tag, dir := true, act := a }
  | reentry {i : Instr} {sl : Slot} {a : HostAct} (hf : s.fault = 0) (hi : s.inited = true) (h : s.state ≠ 0x00)
      (ha : armsOf i = some (sl, a)) :
      CommandEffect s i { s with fault := 3, diag := some (s.state.setWidth 16), act := .idle }
  | rdState (hf : s.fault = 0) (hi : s.inited = true) : CommandEffect s .rdState { s with rsp := some s.state }
  | rdSample (hf : s.fault = 0) (hi : s.inited = true) :
      CommandEffect s .rdSample { s with rsp := some (zext8 s.sampled) }
  | waitDone (hf : s.fault = 0) (hi : s.inited = true) (h : s.state = 0x00) : CommandEffect s .waitIdle s
  | waitHeld (hf : s.fault = 0) (hi : s.inited = true) (h : s.state ≠ 0x00) :
      CommandEffect s .waitIdle { s with act := .waitIdle }
  | writeByte {b : Byte} (hf : s.fault = 0) (hi : s.inited = true) :
      CommandEffect s (.writeByte b) { s with tRun := true, act := .writeByteArm b 0 }
  | readByte (hf : s.fault = 0) (hi : s.inited = true) :
      CommandEffect s .readByte { s with tRun := true, act := .readByteArm 0x00 0 }

/-- A command behind the decoder's checks has the effects of its body, given those under the checks. -/
theorem commandEffect_of_command {s : State} {i : Instr} {body : State → State} (h1 : i ≠ .nop) (h2 : i ≠ .init)
    (h : s.fault = 0 → s.inited = true → CommandEffect s i (body s)) :
    CommandEffect s i (s.command (wordOf i) body) := by
  rcases s.command_cases (wordOf i) body with ⟨hf, e⟩ | ⟨hf, hi, e⟩ | ⟨hf, hi, e⟩ <;> rw [e]
  · exact .refused hf
  · exact .beforeInit hf hi h1 h2
  · exact h hf hi

/-- An arming body. -/
theorem commandEffect_of_arm {s : State} {i : Instr} {sl : Slot} {a : HostAct} (hf : s.fault = 0)
    (hi : s.inited = true) (ha : armsOf i = some (sl, a)) : CommandEffect s i (s.arm sl a) := by
  by_cases h : s.state = 0x00
  · rw [State.arm_of_idle h]
    exact .armed hf hi h ha
  · rw [State.arm_of_busy hf h]
    exact .reentry hf hi h ha

/-- `exec` of a command answers a next state, and that state is one of the effects. -/
theorem exec_command (i : Instr) (hc : i.isCommand = true) (s : State) :
    ∃ t, exec i s = .next t ∧ CommandEffect s i t := by
  cases i with
  | nop =>
    refine ⟨_, rfl, ?_⟩
    by_cases hf : s.fault = 0
    · rw [State.unlessFaulted, if_pos hf]
      exact .nop hf
    · rw [State.unlessFaulted, if_neg hf]
      exact .refused hf
  | init =>
    refine ⟨_, rfl, ?_⟩
    by_cases hf : s.fault = 0
    · rw [State.unlessFaulted, if_pos hf]
      by_cases hi : s.inited = true
      · by_cases h0 : s.state = 0x00
        · simpa [hi, (State.isIdle_iff s).2 h0, State.initWrites_eq] using CommandEffect.init hf (.inr h0)
        · have hb : s.isIdle = false := (State.isIdle_eq_false_iff s).2 h0
          simpa [hi, hb, State.raise_of_noFault hf, FaultCode.bits] using CommandEffect.initInflight hf hi h0
      · have hi : s.inited = false := by simpa using hi
        simpa [hi, State.initWrites_eq] using CommandEffect.init hf (.inl hi)
    · rw [State.unlessFaulted, if_neg hf]
      exact .refused hf
  | start => exact ⟨_, rfl, commandEffect_of_command nofun nofun .start⟩
  | armW0 => exact ⟨_, rfl, commandEffect_of_command nofun nofun fun hf hi => commandEffect_of_arm hf hi rfl⟩
  | armW1 => exact ⟨_, rfl, commandEffect_of_command nofun nofun fun hf hi => commandEffect_of_arm hf hi rfl⟩
  | armRd => exact ⟨_, rfl, commandEffect_of_command nofun nofun fun hf hi => commandEffect_of_arm hf hi rfl⟩
  | rdState => exact ⟨_, rfl, commandEffect_of_command nofun nofun .rdState⟩
  | rdSample => exact ⟨_, rfl, commandEffect_of_command nofun nofun .rdSample⟩
  | waitIdle =>
    refine ⟨_, rfl, commandEffect_of_command nofun nofun fun hf hi => ?_⟩
    by_cases h : s.state = 0x00
    · rw [if_pos ((State.isIdle_iff s).2 h)]
      exact .waitDone hf hi h
    · rw [if_neg (mt (State.isIdle_iff s).1 h)]
      exact .waitHeld hf hi h
  | writeBit v => exact ⟨_, rfl, commandEffect_of_command nofun nofun fun hf hi => commandEffect_of_arm hf hi rfl⟩
  | readBit => exact ⟨_, rfl, commandEffect_of_command nofun nofun fun hf hi => commandEffect_of_arm hf hi rfl⟩
  | writeByte b => exact ⟨_, rfl, commandEffect_of_command nofun nofun .writeByte⟩
  | readByte => exact ⟨_, rfl, commandEffect_of_command nofun nofun .readByte⟩
  | _ => cases hc

/-- What a serviced event with a legal tag does, from the state before SERVICE (R150 to R158). -/
inductive MicroEffect (s : State) : State → Prop
  | idle (h : s.state = 0x00) : MicroEffect s { s with ip := false }
  | writeZeroLow (h : s.state = 0x01) :
      MicroEffect s { s with ip := false, dir := false, cmp := s.cfg.d, state := 0x02 }
  | writeOneLow (h : s.state = 0x03) :
      MicroEffect s { s with ip := false, dir := false, cmp := s.cfg.b, state := 0x04 }
  | readLow (h : s.state = 0x05) :
      MicroEffect s { s with ip := false, dir := false, cmp := s.cfg.e, state := 0x06 }
  | sample (h : s.state = 0x06) :
      MicroEffect s { s with ip := false, sampled := s.line, cmp := s.cfg.f, state := 0x07 }
  | release (h : s.state = 0x02 ∨ s.state = 0x04 ∨ s.state = 0x07) :
      MicroEffect s { s with ip := false, state := 0x00 }

/-- The micro-step a legal tag selects answers a next state with that effect. -/
theorem exec_microStep {s : State} {i : Instr} (hd : decodeTag s.state = .ok i) :
    ∃ t, exec i s.takeInterrupt = .next t ∧ MicroEffect s t := by
  rcases decodeTag_ok_cases hd with ⟨h, rfl⟩ | ⟨h, rfl⟩ | ⟨h, rfl⟩ | ⟨h, rfl⟩ | ⟨h, rfl⟩ | ⟨h, rfl⟩ | ⟨h, rfl⟩ | ⟨h, rfl⟩
  · exact ⟨_, rfl, .idle h⟩
  · exact ⟨_, rfl, .writeZeroLow h⟩
  · exact ⟨_, rfl, .release (.inl h)⟩
  · exact ⟨_, rfl, .writeOneLow h⟩
  · exact ⟨_, rfl, .release (.inr (.inl h))⟩
  · exact ⟨_, rfl, .readLow h⟩
  · exact ⟨_, rfl, .sample h⟩
  · exact ⟨_, rfl, .release (.inr (.inr h))⟩

end Sys2Proof.Machine
end

