-- ==== Sys2Proof/Laws/PerInstr.lean ====
section
/-! SUPPORT. Statements made per instruction, one lemma per constructor of Instr. -/

namespace Sys2Proof.Laws.WordLegal

/-- The word of an instruction is none of the reserved words of spec/30_encoding R85, which WellFormed lists without the
opcode map, its tag is none of the illegal tags of R86, and only commands have a word (R80). -/
def Statement (i : Instr) : Prop :=
  i.wellFormed = true ∧
    match encode i with
    | .cmd w => i.isCommand = true ∧ (CmdFields.ofWord w).wellFormed = true
    | .tag t => i.isCommand = false ∧ tagLegal t = true

theorem nop : Statement .nop := ⟨rfl, rfl, by decide⟩
theorem init : Statement .init := ⟨rfl, rfl, by decide⟩
theorem start : Statement .start := ⟨rfl, rfl, by decide⟩
theorem armW0 : Statement .armW0 := ⟨rfl, rfl, by decide⟩
theorem armW1 : Statement .armW1 := ⟨rfl, rfl, by decide⟩
theorem armRd : Statement .armRd := ⟨rfl, rfl, by decide⟩
theorem rdState : Statement .rdState := ⟨rfl, rfl, by decide⟩
theorem rdSample : Statement .rdSample := ⟨rfl, rfl, by decide⟩
theorem waitIdle : Statement .waitIdle := ⟨rfl, rfl, by decide⟩
theorem writeBit (v : Bool) : Statement (.writeBit v) := ⟨Instr.wellFormed_all _, rfl, by cases v <;> decide⟩
theorem readBit : Statement .readBit := ⟨rfl, rfl, by decide⟩

/-- The fields of the word of WRITE_BYTE. -/
theorem fields_writeByte (b : Byte) : CmdFields.ofWord (0xA000 ||| b.setWidth 16) = { op := 0xA, z := 0, imm := b } := by
  rw [CmdFields.ofWord, CmdFields.mk.injEq]
  refine ⟨?_, ?_, ?_⟩ <;> apply BitVec.eq_of_getLsbD_eq <;> intro i hi <;> interval_cases i <;> simp

theorem writeByte (b : Byte) : Statement (.writeByte b) := by
  refine ⟨Instr.wellFormed_all _, rfl, ?_⟩
  rw [fields_writeByte]
  rfl

theorem readByte : Statement .readByte := ⟨rfl, rfl, by decide⟩
theorem hIdle : Statement .hIdle := ⟨rfl, rfl, by decide⟩
theorem hW0Low : Statement .hW0Low := ⟨rfl, rfl, by decide⟩
theorem hW0Rel : Statement .hW0Rel := ⟨rfl, rfl, by decide⟩
theorem hW1Low : Statement .hW1Low := ⟨rfl, rfl, by decide⟩
theorem hW1Rel : Statement .hW1Rel := ⟨rfl, rfl, by decide⟩
theorem hRdLow : Statement .hRdLow := ⟨rfl, rfl, by decide⟩
theorem hRdSample : Statement .hRdSample := ⟨rfl, rfl, by decide⟩
theorem hRdRel : Statement .hRdRel := ⟨rfl, rfl, by decide⟩

end Sys2Proof.Laws.WordLegal
end

