-- ==== Sys2Proof/Laws/Step.lean ====
section
/-! SUPPORT. What a step can do, said once: which of the agents moved, what a serviced event does for each tag, what the
host's turn and the passing of a boundary do. Every proof about a step goes through these. -/

namespace Sys2Proof.Machine

/-- A step while SERVICE is enabled (R150). -/
theorem step_of_service {s : State} (h : s.serviceEnabled = true) :
    step s = match decodeTag s.state with
      | .ok i => exec i s.takeInterrupt
      | .error _ => .next s.badTag := by
  unfold step State.work State.serviceWork
  simp only [h, if_true]
  cases decodeTag s.state <;> rfl

/-- A step of the host inside a composite command. -/
theorem step_of_hostContinue {s t : State} (h : s.serviceEnabled = false) (hc : s.hostContinue = some t) :
    step s = .next t := by
  simp [step, State.work, State.hostWork, h, hc]

/-- A step in which the host issues a command word. -/
theorem step_of_issues {s : State} {w : CmdWord} {rest : List HostItem} (h : s.Issues w rest) :
    step s = match decodeCommand w with
      | .ok i => exec i (s.issue rest)
      | .error _ => .next ((s.issue rest).raise .illegalCommand w) := by
  obtain ⟨hs, ha, hp⟩ := h
  have hc : s.hostContinue = none := by simp [State.hostContinue, ha]
  unfold step State.work State.hostWork
  simp only [hs, hc, ha, hp, State.commandWork]
  cases decodeCommand w <;> rfl

/-- A step in which the host lets the boundary go by. -/
theorem step_of_passes {s : State} {rest : List HostItem} (hs : s.serviceEnabled = false) (h : s.HostPasses rest) :
    step s = ({ s with port := rest } : State).passBoundary := by
  obtain ⟨hc, h⟩ := h
  unfold step State.work State.hostWork
  simp only [hs, hc]
  rcases h with ⟨ha, rfl⟩ | ⟨hp, rfl⟩ | ⟨ha, hp⟩
  · simp [ha]
  · have e : ({ s with port := [] } : State) = s := by rw [← hp]
    rw [e]
    by_cases ha : s.act = .idle <;> simp [ha, hp]
  · simp [ha, hp]

/-- Every step is one of five: a serviced event with a legal tag, one with an illegal tag, a primitive of the host's
composite command, the issue of a command word, a passing boundary. -/
theorem step_cases (s : State) :
    (∃ i, s.serviceEnabled = true ∧ decodeTag s.state = .ok i ∧ step s = exec i s.takeInterrupt) ∨
      (∃ e, s.serviceEnabled = true ∧ decodeTag s.state = .error e ∧ step s = .next s.badTag) ∨
      (∃ t, s.serviceEnabled = false ∧ s.hostContinue = some t ∧ step s = .next t) ∨
      (∃ w rest i, s.Issues w rest ∧ decodeCommand w = .ok i ∧ step s = exec i (s.issue rest)) ∨
      (∃ w rest e, s.Issues w rest ∧ decodeCommand w = .error e ∧
        step s = .next ((s.issue rest).raise .illegalCommand w)) ∨
      (∃ rest, s.serviceEnabled = false ∧ s.HostPasses rest ∧
        step s = ({ s with port := rest } : State).passBoundary) := by
  cases hs : s.serviceEnabled
  · cases hc : s.hostContinue with
    | some t => exact .inr (.inr (.inl ⟨t, rfl, rfl, step_of_hostContinue hs hc⟩))
    | none =>
      by_cases ha : s.act = .idle
      · cases hp : s.port with
        | nil =>
          have h : s.HostPasses [] := ⟨hc, .inr (.inl ⟨hp, rfl⟩)⟩
          exact .inr (.inr (.inr (.inr (.inr ⟨[], rfl, h, step_of_passes hs h⟩))))
        | cons x rest =>
          cases x with
          | pass =>
            have h : s.HostPasses rest := ⟨hc, .inr (.inr ⟨ha, hp⟩)⟩
            exact .inr (.inr (.inr (.inr (.inr ⟨rest, rfl, h, step_of_passes hs h⟩))))
          | word w =>
            have h : s.Issues w rest := ⟨hs, ha, hp⟩
            have hstep := step_of_issues h
            cases hd : decodeCommand w with
            | ok i => exact .inr (.inr (.inr (.inl ⟨w, rest, i, h, hd, by rw [hstep, hd]⟩)))
            | error e => exact .inr (.inr (.inr (.inr (.inl ⟨w, rest, e, h, hd, by rw [hstep, hd]⟩))))
      · have h : s.HostPasses s.port := ⟨hc, .inl ⟨ha, rfl⟩⟩
        exact .inr (.inr (.inr (.inr (.inr ⟨s.port, rfl, h, step_of_passes hs h⟩))))
  · have hstep := step_of_service hs
    cases hd : decodeTag s.state with
    | ok i => exact .inl ⟨i, rfl, rfl, by rw [hstep, hd]⟩
    | error e => exact .inr (.inl ⟨e, rfl, rfl, by rw [hstep, hd]⟩)

/-- What a primitive of the host's composite command can do (R89). -/
inductive HostEffect (s : State) : State → Prop
  /-- a wait is over: STATE is IDLE; the composite goes on with its next slot or completes -/
  | waitOver {a : HostAct} {r : Option Byte} (hp : s.inited = true ∧ s.fault = 0 ∧ s.state = 0x00)
      (ha : s.act.slotInRange = true → a.slotInRange = true) (hr : a ≠ .idle → r = s.rsp) :
      HostEffect s { s with act := a, rsp := r }
  /-- the next slot is armed -/
  | armed {sl : Slot} {a : HostAct} (hf : s.fault = 0) (hi : s.inited = true) (h : s.state = 0x00)
      (ha : s.act.slotInRange = true → a.slotInRange = true) (hne : a ≠ .idle) :
      HostEffect s { s with cnt := 0, cmp := sl.delay s.cfg, state := sl.tag, dir := true, act := a }
  | refused (hf : s.fault ≠ 0) : HostEffect s { s with act := .idle }
  | beforeInit {w : CmdWord} (hf : s.fault = 0) (hi : s.inited = false) :
      HostEffect s { s with act := .idle, fault := 2, diag := some w }
  | reentry (hf : s.fault = 0) (hi : s.inited = true) (h : s.state ≠ 0x00) :
      HostEffect s { s with act := .idle, fault := 3, diag := some (s.state.setWidth 16) }

theorem hostEffect_of_armSlot {s : State} {sl : Slot} {a : HostAct}
    (ha : s.act.slotInRange = true → a.slotInRange = true) (hne : a ≠ .idle) : HostEffect s (s.armSlot sl a) := by
  unfold State.armSlot
  by_cases hf : s.fault = 0
  · by_cases hi : s.inited = true
    · rw [State.command_of_inited (s := { s with act := .idle }) hf hi]
      by_cases h : s.state = 0x00
      · rw [State.arm_of_idle (s := { s with act := .idle }) h]
        exact .armed hf hi h ha hne
      · rw [State.arm_of_busy (s := { s with act := .idle }) hf h]
        exact .reentry hf hi h
    · have hi : s.inited = false := by simpa using hi
      rw [State.command_of_not_inited (s := { s with act := .idle }) hf hi]
      exact .beforeInit hf hi
  · rw [State.command_of_fault (s := { s with act := .idle }) hf]
    exact .refused hf

/-- Everything the host can do inside a composite command. -/
theorem hostContinue_effect {s t : State} (h : s.hostContinue = some t) : s.act ≠ .idle ∧ HostEffect s t := by
  unfold State.hostContinue at h
  cases hact : s.act with
  | idle => simp [hact] at h
  | waitIdle | writeBit =>
    simp only [hact] at h
    split at h
    · rename_i hp
      cases h
      exact ⟨nofun, .waitOver ((State.pollFindsIdle_iff s).1 hp) (fun _ => rfl) (fun _ => rfl)⟩
    · cases h
  | readBit =>
    simp only [hact] at h
    split at h
    · rename_i hp
      cases h
      exact ⟨nofun, .waitOver ((State.pollFindsIdle_iff s).1 hp) (fun _ => rfl) (fun h => absurd rfl h)⟩
    · cases h
  | writeByteArm sh n =>
    simp only [hact] at h
    cases h
    exact ⟨nofun, hostEffect_of_armSlot (fun h => by simpa [hact, HostAct.slotInRange] using h) nofun⟩
  | readByteArm acc n =>
    simp only [hact] at h
    cases h
    exact ⟨nofun, hostEffect_of_armSlot (fun h => by simpa [hact, HostAct.slotInRange] using h) nofun⟩
  | writeByteWait sh n =>
    simp only [hact] at h
    split at h
    · rename_i hp
      cases h
      refine ⟨nofun, ?_⟩
      unfold State.writeByteNext
      split
      · rename_i hn
        refine .waitOver ((State.pollFindsIdle_iff s).1 hp) (fun _ => ?_) (fun _ => rfl)
        simp only [HostAct.slotInRange, decide_eq_true_eq]
        omega
      · exact .waitOver ((State.pollFindsIdle_iff s).1 hp) (fun _ => rfl) (fun _ => rfl)
    · cases h
  | readByteWait acc n =>
    simp only [hact] at h
    split at h
    · rename_i hp
      cases h
      refine ⟨nofun, ?_⟩
      unfold State.readByteNext
      dsimp only
      split
      · rename_i hn
        refine .waitOver ((State.pollFindsIdle_iff s).1 hp) (fun _ => ?_) (fun _ => rfl)
        simp only [HostAct.slotInRange, decide_eq_true_eq]
        omega
      · exact .waitOver ((State.pollFindsIdle_iff s).1 hp) (fun _ => rfl) (fun h => absurd rfl h)
    · cases h

/-- Everything a step that answers a next state can do. -/
inductive StepEffect (s : State) : State → Prop
  | service {t : State} (hs : s.serviceEnabled = true) (h : MicroEffect s t) : StepEffect s t
  | badTag (hs : s.serviceEnabled = true) (h : 8 ≤ s.state.toNat) :
      StepEffect s { s with ip := false, fault := 5, diag := some (s.state.setWidth 16) }
  | host {t : State} (hs : s.serviceEnabled = false) (ha : s.act ≠ .idle) (hc : s.hostContinue = some t)
      (h : HostEffect s t) : StepEffect s t
  | command {w : CmdWord} {rest : List HostItem} {i : Instr} {t : State} (hi : s.Issues w rest)
      (hd : decodeCommand w = .ok i) (h : CommandEffect { s with port := rest, rsp := none } i t) : StepEffect s t
  | illegal {w : CmdWord} {rest : List HostItem} (hi : s.Issues w rest) (hf : s.fault = 0) :
      StepEffect s { s with port := rest, rsp := none, fault := 1, diag := some w }
  | illegalRefused {w : CmdWord} {rest : List HostItem} (hi : s.Issues w rest) (hf : s.fault ≠ 0) :
      StepEffect s { s with port := rest, rsp := none }
  | boundaryOnly {rest : List HostItem} (hs : s.serviceEnabled = false) (hp : s.HostPasses rest)
      (ht : s.tickEnabled = false) : StepEffect s { s with port := rest, k := s.k + 1 }
  | matched {rest : List HostItem} (hs : s.serviceEnabled = false) (hp : s.HostPasses rest)
      (ht : s.tickEnabled = true) (hm : (s.cnt + 1) % 2 ^ s.cfg.w = s.cmp) :
      StepEffect s { s with port := rest, k := s.k + 1, cnt := 0, ip := true }
  | counted {rest : List HostItem} (hs : s.serviceEnabled = false) (hp : s.HostPasses rest)
      (ht : s.tickEnabled = true) (hm : (s.cnt + 1) % 2 ^ s.cfg.w ≠ s.cmp) :
      StepEffect s { s with port := rest, k := s.k + 1, cnt := (s.cnt + 1) % 2 ^ s.cfg.w }

/-- The inversion lemma of `step`. -/
theorem stepEffect_of_next {s t : State} (h : step s = .next t) : StepEffect s t := by
  rcases step_cases s with ⟨i, hs, hd, e⟩ | ⟨e, hs, hd, e'⟩ | ⟨u, hs, hc, e⟩ | ⟨w, rest, i, hi, hd, e⟩ |
    ⟨w, rest, e, hi, hd, e'⟩ | ⟨rest, hs, hp, e⟩
  · obtain ⟨u, hu, hm⟩ := exec_microStep hd
    rw [e, hu] at h
    cases h
    exact .service hs hm
  · have hf := ((State.serviceEnabled_iff s).1 hs).2.1
    rw [e', State.badTag, State.raise_of_noFault (s := s.takeInterrupt) hf] at h
    cases h
    exact .badTag hs ((decodeTag_error_iff _).1 ⟨e, hd⟩)
  · rw [e] at h
    cases h
    exact .host hs (hostContinue_effect hc).1 hc (hostContinue_effect hc).2
  · obtain ⟨u, hu, hm⟩ := exec_command i (isCommand_of_decodeCommand hd) (s.issue rest)
    rw [e, hu] at h
    cases h
    exact .command hi hd hm
  · rcases (s.issue rest).raise_cases .illegalCommand w with ⟨hf, e⟩ | ⟨hf, e⟩ <;> rw [e', e] at h <;> cases h
    · exact .illegalRefused hi hf
    · exact .illegal hi hf
  · rcases State.passBoundary_cases { s with port := rest } with ⟨ht, e'⟩ | ⟨-, -, e'⟩ | ⟨ht, -, hm, e'⟩ | ⟨ht, -, hm, e'⟩ <;>
      rw [e, e'] at h <;> cases h
    · exact .boundaryOnly hs hp ht
    · exact .matched hs hp ht hm
    · exact .counted hs hp ht hm

end Sys2Proof.Machine
end

