-- ==== Sys2Proof/Laws/Run.lean ====
section
/-! SUPPORT. Runs of several steps: their composition, the ticks that pass while the host is quiet, and the phases of a
bit slot one after another, for a composite command that waits and for a host with nothing to issue. -/

namespace Sys2Proof.Machine

theorem run_of_next (M : Host.Core) {s t : M.State} (n : Nat) (h : M.step s = .next t) : M.run (n + 1) s = M.run n t := by
  rw [Host.Core.run, h]

/-- A run of `n + 1` steps that does not stop begins with a step that does not stop. -/
theorem step_of_run_succ (M : Host.Core) {s u : M.State} (n : Nat) (h : M.run (n + 1) s = .next u) :
    ∃ t, M.step s = .next t ∧ M.run n t = .next u := by
  rw [Host.Core.run] at h
  cases hs : M.step s with
  | next t =>
    rw [hs] at h
    exact ⟨t, rfl, h⟩
  | fault r =>
    rw [hs] at h
    cases h
  | refused r =>
    rw [hs] at h
    cases h

theorem State.after_zero (s : State) : s.After 0 s := rfl

theorem State.after_succ {s t u : State} {n : Nat} (h : step s = .next t) (ht : t.After n u) : s.After (n + 1) u := by
  exact (run_of_next Sys2Proof.core n h).trans ht

/-- Runs compose. -/
theorem State.After.trans {s t u : State} {m n : Nat} (h : s.After m t) (ht : t.After n u) : s.After (m + n) u := by
  induction m generalizing s with
  | zero =>
    cases h
    simpa using ht
  | succ m ih =>
    obtain ⟨s', hs, hr⟩ := step_of_run_succ Sys2Proof.core m h
    have := State.after_succ hs (ih hr)
    rwa [show m + n + 1 = m + 1 + n by omega] at this

/-- A run followed by one step. -/
theorem State.After.step {s t u : State} {n : Nat} (h : s.After n t) (ht : Machine.step t = .next u) : s.After (n + 1) u :=
  h.trans (State.after_succ ht (State.after_zero u))

/-- While `STATE` is not IDLE the host takes no step: it waits inside a composite command, or it has nothing to issue. -/
def State.Quiet (s : State) : Prop := s.act.waits = true ∨ (s.act = .idle ∧ s.port = [])

/-- While `STATE` is not IDLE a quiet host lets the boundary go by, and its port stays as it is (R10, R186). -/
theorem State.hostPasses_of_quiet {s : State} (ha : s.Quiet) (h : s.state ≠ 0x00) : s.HostPasses s.port := by
  have hp : s.pollFindsIdle = false := by
    rw [Bool.eq_false_iff, Ne, State.pollFindsIdle_iff]
    exact fun hh => h hh.2.2
  rcases ha with ha | ⟨ha, hport⟩
  · refine ⟨?_, .inl ⟨(by intro hi; rw [hi] at ha; cases ha), rfl⟩⟩
    unfold State.hostContinue
    cases hact : s.act <;> simp_all [HostAct.waits]
  · exact ⟨by rw [State.hostContinue, ha], .inr (.inl ⟨hport, hport⟩)⟩

/-- The passing of a boundary with the host quiet and the timer running. -/
theorem step_of_quiet {s : State} (hr : s.Running) (hip : s.ip = false) (ha : s.Quiet) (h : s.state ≠ 0x00) :
    step s = .next { s.tick with k := s.k + 1 } := by
  rw [step_of_passes (State.serviceEnabled_of_no_pending hip) (State.hostPasses_of_quiet ha h)]
  change s.passBoundary = _
  have ht : s.tickEnabled = true := (State.tickEnabled_iff s).2 ⟨hr.inited, hr.noFault, hr.runs⟩
  rcases s.passBoundary_cases with ⟨h, -⟩ | ⟨-, h, -⟩ | ⟨-, -, hm, e⟩ | ⟨-, -, hm, e⟩
  · rw [ht] at h
    cases h
  · rw [hr.periodic] at h
    cases h
  · rw [e, State.tick_of_match hm]
  · rw [e, State.tick_of_no_match hm]

/-- The first ticks of a delay of `n`: the counter counts and nothing else happens (R139). -/
theorem State.after_ticks {s : State} {n : Nat} (hr : s.Running) (hip : s.ip = false) (ha : s.Quiet)
    (h : s.state ≠ 0x00) (hc : s.cnt = 0) (hm : s.cmp = n) (hn : n ≤ 2 ^ s.cfg.w - 1) :
    ∀ j, j < n → s.After j { s with k := s.k + j, cnt := j } := by
  intro j
  induction j with
  | zero =>
    intro _
    have : ({ s with k := s.k + 0, cnt := 0 } : State) = s := by
      cases s
      cases hc
      rfl
    rw [this]
    exact State.after_zero s
  | succ j ih =>
    intro hj
    have hmod : (j + 1) % 2 ^ s.cfg.w = j + 1 := Nat.mod_eq_of_lt (by omega)
    refine (ih (by omega)).step ?_
    rw [step_of_quiet (s := { s with k := s.k + j, cnt := j }) ⟨hr.1, hr.2, hr.3, hr.4, hr.5, hr.6⟩ hip ha h,
      State.tick_of_no_match (s := { s with k := s.k + j, cnt := j }) (by simp only [hmod, hm]; omega)]
    simp only [hmod, Nat.add_assoc]

/-- A whole delay of `n` ends with the event pending and the counter at 0 (R139). -/
theorem State.after_delay {s : State} {n : Nat} (hr : s.Running) (hip : s.ip = false) (ha : s.Quiet)
    (h : s.state ≠ 0x00) (hc : s.cnt = 0) (hm : s.cmp = n) (h1 : 1 ≤ n) (hn : n ≤ 2 ^ s.cfg.w - 1) :
    s.After n { s with k := s.k + n, cnt := 0, ip := true } := by
  obtain ⟨m, rfl⟩ : ∃ m, n = m + 1 := ⟨n - 1, by omega⟩
  have hmod : (m + 1) % 2 ^ s.cfg.w = m + 1 := Nat.mod_eq_of_lt (by omega)
  refine (State.after_ticks hr hip ha h hc hm hn m (by omega)).step ?_
  rw [step_of_quiet (s := { s with k := s.k + m, cnt := m }) ⟨hr.1, hr.2, hr.3, hr.4, hr.5, hr.6⟩ hip ha h,
    State.tick_of_match (s := { s with k := s.k + m, cnt := m }) (by simp only [hmod, hm])]
  simp only [Nat.add_assoc]

/-- A pending event of a running machine is serviced by the next step. -/
theorem State.serviceEnabled_of_pending {s : State} (hr : s.Running) (hip : s.ip = true) : s.serviceEnabled = true :=
  (State.serviceEnabled_iff s).2 ⟨hr.inited, hr.noFault, hip, hr.enabled⟩

/-- A delay and the micro-step that ends it: the phase selected by the tag, of the `n` ticks in `CMP` (R162). -/
theorem State.after_phase {s t : State} {n : Nat} (hr : s.Running) (hip : s.ip = false) (ha : s.Quiet)
    (h : s.state ≠ 0x00) (hc : s.cnt = 0) (hm : s.cmp = n) (h1 : 1 ≤ n) (hn : n ≤ 2 ^ s.cfg.w - 1) {i : Instr}
    (hd : decodeTag s.state = .ok i) (he : exec i { s with k := s.k + n, cnt := 0, ip := false } = .next t) :
    s.After (n + 1) t := by
  refine (State.after_delay hr hip ha h hc hm h1 hn).step ?_
  rw [step_of_service (s := { s with k := s.k + n, cnt := 0, ip := true })
    (State.serviceEnabled_of_pending ⟨hr.1, hr.2, hr.3, hr.4, hr.5, hr.6⟩ rfl), hd]
  exact he

end Sys2Proof.Machine
end

