-- ==== Sys2Proof/Tests/Slice0.lean ====
section
/-! SUPPORT. Tests: ill-formed terms, words written out bit by bit from spec/30_encoding, single steps with the results of
spec/95_test_vectors (the vector's id stands in each comment), and a witness for every statement with hypotheses. The
parameters are the REF instantiation of spec/95, which is an example only. -/

namespace Sys2Proof.Tests

open Sys2Proof.Machine

/-- The REF instantiation of spec/95. -/
def refParams : Params := { w := 8, a := 6, b := 64, d := 10, e := 9, f := 55, w0Low := 6, initRun := true, c := 60 }

def ref : Config := { toParams := refParams, ok := by decide }

/-- REF with the timer left stopped by INIT. -/
def refStopped : Config := { toParams := { refParams with initRun := false }, ok := by decide }

/-- After INIT and START, nothing in flight, boundary 100, no device on the line there. -/
def ready : State :=
  { state := 0x00, sampled := true, cnt := 23, cmp := 64, tRun := true, tPeriodic := true, ie := true, ip := false,
    dir := false, out := false, inited := true, fault := 0, act := .idle, port := [], rsp := none, k := 100,
    diag := none, env := [(100, false), (101, true)], cfg := ref }

/-- `ready` with a tag in STATE, the pin as R42 I3 says, and an event pending. -/
def pending (t : Byte) : State := { ready with state := t, ip := true, dir := t == 0x01 || t == 0x03 || t == 0x05 }

/-- An operation in flight. -/
def busy : State := { ready with state := 0x03, dir := true, cnt := 3, cmp := 6 }

/-- Before INIT, `STATE` happening to hold 0x04. -/
def cold : State := { ready with inited := false, state := 0x04, tRun := false, ie := false, tPeriodic := false }

/-- A fault recorded. -/
def failed : State := { ready with fault := 3 }

def nextOf : Host.Outcome State Fault Refusal → Option State
  | .next t => some t
  | .fault _ | .refused _ => none

/-! ### Ill-formed terms are refused, each by its check -/

theorem test_wf_opcode : CmdFields.wellFormed { op := 0x7, z := 0, imm := 0 } = false ∧ CmdFields.opDefined { op := 0xC, z := 0, imm := 0 } = false := by decide
theorem test_wf_z : CmdFields.wellFormed { op := 0xA, z := 1, imm := 0xB2 } = false := by decide
theorem test_wf_imm : CmdFields.wellFormed { op := 0xB, z := 0, imm := 1 } = false := by decide
theorem test_wf_kind : CmdFields.wellFormed { op := 0x3, z := 0, imm := 3 } = false ∧ CmdFields.wellFormed { op := 0x3, z := 0, imm := 2 } = true := by decide
theorem test_wf_bit : CmdFields.wellFormed { op := 0x8, z := 0, imm := 2 } = false ∧ CmdFields.wellFormed { op := 0x8, z := 0, imm := 1 } = true := by decide
theorem test_wf_tag : tagLegal 0x08 = false ∧ tagLegal 0x07 = true := by decide
theorem test_wf_width : Params.toConfig? { refParams with w := 0 } = none := by decide
theorem test_wf_zero_delay : Params.toConfig? { refParams with e := 0 } = none := by decide
theorem test_wf_long_delay :
    Params.toConfig? { refParams with b := 256 } = none ∧ (Params.toConfig? { refParams with b := 255 }).isSome = true := by decide
theorem test_wf_other_delays :
    Params.toConfig? { refParams with a := 0 } = none ∧ Params.toConfig? { refParams with d := 0 } = none ∧
      Params.toConfig? { refParams with f := 0 } = none ∧ Params.toConfig? { refParams with w0Low := 0 } = none := by decide

/-- D10 bounds C too; G to J are free, as in GK1. -/
theorem test_wf_unused_constants :
    Params.toConfig? { refParams with c := 0 } = none ∧ Params.toConfig? { refParams with c := 256 } = none ∧
      (Params.toConfig? { refParams with g := 0, h := 480, i := 70, j := 410 }).isSome = true := by decide

/-! ### Decoding of words written out from R81, R83, R84: op, z, imm -/

theorem test_decode_nop : decodeCommand 0b0000_0000_00000000 = .ok .nop := by rfl
theorem test_decode_init : decodeCommand 0b0001_0000_00000000 = .ok .init := by rfl
theorem test_decode_start : decodeCommand 0b0010_0000_00000000 = .ok .start := by rfl
theorem test_decode_armW0 : decodeCommand 0b0011_0000_00000000 = .ok .armW0 := by rfl
theorem test_decode_armW1 : decodeCommand 0b0011_0000_00000001 = .ok .armW1 := by rfl
theorem test_decode_armRd : decodeCommand 0b0011_0000_00000010 = .ok .armRd := by rfl
theorem test_decode_rdState : decodeCommand 0b0100_0000_00000000 = .ok .rdState := by rfl
theorem test_decode_rdSample : decodeCommand 0b0101_0000_00000000 = .ok .rdSample := by rfl
theorem test_decode_waitIdle : decodeCommand 0b0110_0000_00000000 = .ok .waitIdle := by rfl
theorem test_decode_writeBit :
    decodeCommand 0b1000_0000_00000000 = .ok (.writeBit false) ∧ decodeCommand 0b1000_0000_00000001 = .ok (.writeBit true) :=
  ⟨by rfl, by rfl⟩
theorem test_decode_readBit : decodeCommand 0b1001_0000_00000000 = .ok .readBit := by rfl
theorem test_decode_writeByte :
    decodeCommand 0b1010_0000_10110010 = .ok (.writeByte 0xB2) ∧ decodeCommand 0b1010_0000_11111111 = .ok (.writeByte 0xFF) :=
  ⟨by rfl, by rfl⟩
theorem test_decode_readByte : decodeCommand 0b1011_0000_00000000 = .ok .readByte := by rfl
theorem test_decode_tags :
    decodeTag 0b00000000 = .ok .hIdle ∧ decodeTag 0b00000001 = .ok .hW0Low ∧ decodeTag 0b00000010 = .ok .hW0Rel ∧
      decodeTag 0b00000011 = .ok .hW1Low ∧ decodeTag 0b00000100 = .ok .hW1Rel ∧ decodeTag 0b00000101 = .ok .hRdLow ∧
      decodeTag 0b00000110 = .ok .hRdSample ∧ decodeTag 0b00000111 = .ok .hRdRel := by
  refine ⟨?_, ?_, ?_, ?_, ?_, ?_, ?_, ?_⟩ <;> rfl
/-- E17 to E24, and the first illegal tag. -/
theorem test_decode_reserved :
    decodeCommand 0x3003 = .error .reservedKind ∧ decodeCommand 0x8002 = .error .operandNotABit ∧
      decodeCommand 0x0001 = .error .nonzeroImm ∧ decodeCommand 0x1100 = .error .nonzeroZ ∧
      decodeCommand 0xA1B2 = .error .nonzeroZ ∧ decodeCommand 0x7000 = .error .reservedOpcode ∧
      decodeCommand 0xC000 = .error .reservedOpcode ∧ decodeCommand 0xFFFF = .error .reservedOpcode ∧
      decodeCommand 0xB001 = .error .nonzeroImm ∧ decodeTag 0x08 = .error .illegalTag := by
  refine ⟨?_, ?_, ?_, ?_, ?_, ?_, ?_, ?_, ?_, ?_⟩ <;> rfl

/-! ### Commands -/

/-- H7. -/
theorem test_nop_before_init : nextOf (exec .nop cold) = some cold := by decide
/-- H3. -/
theorem test_init_clears_run : (nextOf (exec .init { ready with cfg := refStopped })).map (·.tRun) = some false := by decide
/-- H4, H5. -/
theorem test_init_in_flight :
    (nextOf (exec .init { ready with state := 0x04 })).map (fun t => (t.fault, t.state)) = some (4, 0x04) ∧
      (nextOf (exec .init cold)).map (fun t => (t.fault, t.state, t.inited)) = some (0, 0x00, true) := by decide
/-- G8. -/
theorem test_start : (nextOf (exec .start { ready with tRun := false, cnt := 17 })).map (fun t => (t.tRun, t.cnt)) = some (true, 17) := by decide
/-- E26. -/
theorem test_start_before_init : (nextOf (exec .start cold)).map (fun t => (t.fault, t.tRun)) = some (2, false) := by decide
/-- F7. -/
theorem test_armW0 : (nextOf (exec .armW0 ready)).map (fun t => (t.cnt, t.cmp, t.state, t.dir)) = some (0, 6, 0x01, true) := by decide
/-- The compare delay of ARM_W0 is W0_LOW and not A, seen with the ALT value (90 C1). -/
theorem test_armW0_delay :
    (nextOf (exec .armW0 { ready with cfg := { toParams := { refParams with w0Low := 66 }, ok := by decide } })).map (·.cmp) = some 66 := by decide
/-- F6. -/
theorem test_armW1 : (nextOf (exec .armW1 ready)).map (fun t => (t.cnt, t.cmp, t.state, t.dir)) = some (0, 6, 0x03, true) := by decide
/-- F8. -/
theorem test_armRd : (nextOf (exec .armRd ready)).map (fun t => (t.cnt, t.cmp, t.state, t.dir, t.sampled)) = some (0, 6, 0x05, true, true) := by decide
/-- F9. -/
theorem test_armRd_reentry : (nextOf (exec .armRd busy)).map (fun t => (t.fault, t.state, t.cnt)) = some (3, 0x03, 3) := by decide
/-- F10. -/
theorem test_rdState : (nextOf (exec .rdState busy)).map (·.rsp) = some (some 0x03) := by decide
/-- F13, F14. -/
theorem test_rdSample :
    (nextOf (exec .rdSample { busy with sampled := false })).map (·.rsp) = some (some 0x00) ∧
      (nextOf (exec .rdSample ready)).map (·.rsp) = some (some 0x01) := by decide
/-- F15. -/
theorem test_waitIdle : nextOf (exec .waitIdle ready) = some ready ∧ (nextOf (exec .waitIdle busy)).map (·.act) = some .waitIdle := by decide
/-- F1, F2 at `k0`. -/
theorem test_writeBit :
    (nextOf (exec (.writeBit true) ready)).map (fun t => (t.state, t.act)) = some (0x03, .writeBit) ∧
      (nextOf (exec (.writeBit false) ready)).map (fun t => (t.state, t.act)) = some (0x01, .writeBit) := by decide
/-- F3 at its completion: SAMPLED = 0 is returned as 0x00. -/
theorem test_readBit_returns : (nextOf (step { ready with act := .readBit, sampled := false })).map (fun t => (t.rsp, t.act)) = some (some 0x00, .idle) := by decide
/-- P1, slots 0 and 1: 0xB2 sends 0 first, and SH is 0x59 after slot 0. -/
theorem test_writeByte :
    (nextOf (step { ready with act := .writeByteArm 0xB2 0 })).map (·.state) = some 0x01 ∧
      (nextOf (step { ready with act := .writeByteWait 0xB2 0 })).map (·.act) = some (.writeByteArm 0x59 1) := by decide
/-- G10, iterations 4 and 7: 0x20 and a 1 give 0x90; 0x64 and a 1 give 0xB2, which is returned. -/
theorem test_readByte :
    (nextOf (step { ready with act := .readByteWait 0x20 4 })).map (·.act) = some (.readByteArm 0x90 5) ∧
      (nextOf (step { ready with act := .readByteWait 0x64 7 })).map (fun t => (t.rsp, t.act)) = some (some 0xB2, .idle) := by decide
/-- H8: before INIT. -/
theorem test_readByte_before_init : (nextOf (exec .readByte cold)).map (fun t => (t.fault, t.tRun)) = some (2, false) := by decide
/-- H6, H10, H11, E28: a recorded fault refuses every command, a reserved word too; the first code stays. -/
theorem test_refused_after_fault :
    nextOf (exec .init failed) = some failed ∧ nextOf (exec .nop failed) = some failed ∧
      (nextOf (step { failed with port := [.word 0x7000] })).map (·.fault) = some 3 := by decide
/-- E22, E25: a reserved word, before INIT too. -/
theorem test_reserved_word : (nextOf (step { cold with port := [.word 0x7000] })).map (·.fault) = some 1 := by decide

/-! ### Micro-steps (95 L2-D), through SERVICE -/

/-- D1. -/
theorem test_hIdle : (nextOf (step (pending 0x00))).map (fun t => (t.state, t.cmp, t.dir, t.ip)) = some (0x00, 64, false, false) := by decide
/-- D2. -/
theorem test_hW0Low : (nextOf (step (pending 0x01))).map (fun t => (t.dir, t.cmp, t.state)) = some (false, 10, 0x02) := by decide
/-- D3. -/
theorem test_hW0Rel : (nextOf (step (pending 0x02))).map (fun t => (t.state, t.cmp)) = some (0x00, 64) := by decide
/-- D4. -/
theorem test_hW1Low : (nextOf (step (pending 0x03))).map (fun t => (t.dir, t.cmp, t.state)) = some (false, 64, 0x04) := by decide
/-- D5. -/
theorem test_hW1Rel : (nextOf (step (pending 0x04))).map (fun t => (t.state, t.dir)) = some (0x00, false) := by decide
/-- D6. -/
theorem test_hRdLow : (nextOf (step (pending 0x05))).map (fun t => (t.dir, t.cmp, t.state, t.sampled)) = some (false, 9, 0x06, true) := by decide
/-- D7, B12: the interval that begins at this boundary is sampled. -/
theorem test_hRdSample_low :
    (nextOf (step { pending 0x06 with k := 101 })).map (fun t => (t.sampled, t.cmp, t.state)) = some (false, 55, 0x07) := by decide
/-- D8. -/
theorem test_hRdSample_high : (nextOf (step { pending 0x06 with sampled := false })).map (·.sampled) = some true := by decide
/-- D9. -/
theorem test_hRdRel : (nextOf (step (pending 0x07))).map (fun t => (t.state, t.sampled)) = some (0x00, true) := by decide
/-- D10, D11. -/
theorem test_illegal_tag :
    (nextOf (step (pending 0x08))).map (fun t => (t.fault, t.state, t.ip)) = some (5, 0x08, false) ∧
      (nextOf (step (pending 0xFF))).map (·.fault) = some 5 := by decide

/-! ### Timer, wire, interrupt -/

/-- A1, A2, A3. -/
theorem test_tick :
    (State.tick { ready with cnt := 4, cmp := 6 }).cnt = 5 ∧ (State.tick { ready with cnt := 5, cmp := 6 }).cnt = 0 ∧
      (State.tick { ready with cnt := 5, cmp := 6 }).ip = true ∧ (State.tick { ready with cnt := 5, cmp := 6, ip := true }).ip = true := by decide
/-- A5, A6, A7. -/
theorem test_tick_wraps :
    (State.tick { ready with cnt := 255, cmp := 6 }).ip = false ∧ (State.tick { ready with cnt := 255, cmp := 0 }).ip = true ∧
      (State.tick { ready with cnt := 9, cmp := 6 }).cnt = 10 := by decide
/-- A4. -/
theorem test_tick_stopped : (nextOf (step { ready with tRun := false })).map (fun t => (t.cnt, t.k)) = some (23, 101) := by decide
/-- B1 to B4, B7. -/
theorem test_line :
    ready.line = true ∧ ({ ready with k := 101 } : State).line = false ∧ busy.line = false ∧
      ({ busy with k := 101 } : State).line = false ∧ ({ busy with out := true } : State).line = true := by decide
/-- C3: a disabled interrupt stays pending while the boundary passes. -/
theorem test_disabled_interrupt : (nextOf (step { pending 0x03 with ie := false })).map (fun t => (t.ip, t.state)) = some (true, 0x03) := by decide
/-- C5: SERVICE runs before the next command. -/
theorem test_service_first :
    (nextOf (step { pending 0x00 with port := [.word 0x4000] })).map (fun t => (t.ip, t.port)) = some (false, [.word 0x4000]) := by decide
/-- R300 with REF's tick of one microsecond. -/
theorem test_tick_duration : Params.micros? { refParams with fCpu := 8000000, prescaler := 8 } 70 = some 70 := by decide

/-! ### Witnesses: a state and operands that meet the hypotheses, for every clause of every statement that has some -/

/-- The states the command statements speak of: ready, an operation in flight, before INIT. -/
def CommandStates : Prop :=
  (ready.NoFault ∧ ready.inited = true ∧ ready.state = 0x00) ∧ (busy.NoFault ∧ busy.inited = true ∧ busy.state ≠ 0x00) ∧
    (cold.NoFault ∧ cold.inited = false)

theorem witness_ArmWriteZeroStartsSlot : CommandStates := by unfold CommandStates; decide
theorem witness_ArmWriteOneStartsSlot : CommandStates := witness_ArmWriteZeroStartsSlot
theorem witness_ArmReadStartsSlot : CommandStates := witness_ArmWriteZeroStartsSlot
theorem witness_StartSetsTheTimerRunning : CommandStates := witness_ArmWriteZeroStartsSlot
theorem witness_RdStateReturnsTag : CommandStates := witness_ArmWriteZeroStartsSlot
theorem witness_RdSampleReturnsSampledBit : CommandStates := witness_ArmWriteZeroStartsSlot
theorem witness_InitSetsIdle : CommandStates := witness_ArmWriteZeroStartsSlot

/-- The states the composites' later clauses speak of, for a host position `a`: the wait over; held by a tag; held by a
fault. -/
def HeldStates (a : HostAct) : Prop :=
  (∃ s : State, s.act = a ∧ s.serviceEnabled = false ∧ s.NoFault ∧ s.inited = true ∧ s.state = 0x00) ∧
    (∃ s : State, s.act = a ∧ s.serviceEnabled = false ∧ s.NoFault ∧ s.inited = true ∧ s.state ≠ 0x00) ∧
    (∃ s : State, s.act = a ∧ s.fault ≠ 0)

theorem heldStates (a : HostAct) : HeldStates a :=
  ⟨⟨{ ready with act := a }, rfl, rfl, rfl, rfl, rfl⟩,
    ⟨{ busy with act := a }, rfl, rfl, rfl, rfl, by change (0x03 : Byte) ≠ 0x00; decide⟩,
    ⟨{ failed with act := a }, rfl, by change (3 : FaultBits) ≠ 0; decide⟩⟩

theorem witness_WaitIdleHoldsTheHost : CommandStates ∧ HeldStates .waitIdle := ⟨witness_ArmWriteZeroStartsSlot, heldStates _⟩
theorem witness_WriteBitArmsAndWaits : CommandStates ∧ HeldStates .writeBit := ⟨witness_ArmWriteZeroStartsSlot, heldStates _⟩
theorem witness_ReadBitArmsWaitsAndReturns : CommandStates ∧ HeldStates .readBit := ⟨witness_ArmWriteZeroStartsSlot, heldStates _⟩
theorem witness_WriteByteTakesEightSlots :
    CommandStates ∧ HeldStates (.writeByteArm 0xB2 0) ∧ HeldStates (.writeByteWait 0xB2 6) ∧ HeldStates (.writeByteWait 0x01 7) :=
  ⟨witness_ArmWriteZeroStartsSlot, heldStates _, heldStates _, heldStates _⟩
theorem witness_ReadByteTakesEightSlots :
    CommandStates ∧ HeldStates (.readByteArm 0x00 0) ∧ HeldStates (.readByteWait 0x00 6) ∧ HeldStates (.readByteWait 0x64 7) :=
  ⟨witness_ArmWriteZeroStartsSlot, heldStates _, heldStates _, heldStates _⟩

theorem witness_EveryAcceptedWordEncodesItsInstruction :
    decode (.cmd 0xA0FF) = .ok (.writeByte 0xFF) ∧ decode (.cmd 0x8001) = .ok (.writeBit true) ∧ decode (.tag 0x07) = .ok .hRdRel :=
  ⟨by rfl, by rfl, by rfl⟩

theorem witness_ReservedWordIsIllegalCommand :
    State.Issues { cold with port := [.word 0x3003, .pass] } 0x3003 [.pass] ∧ cold.NoFault ∧
      decodeCommand 0x3003 = .error .reservedKind ∧ decodeCommand 0x8002 = .error .operandNotABit :=
  ⟨⟨rfl, rfl, rfl⟩, rfl, by rfl, by rfl⟩

theorem witness_PlacedInstructionRunsNext :
    decodeTableWord 8 0x07 = some .hRdRel ∧ decodeTableWord 16 0x0000 = some .nop ∧ decodeTableWord 16 0xA0FF = some (.writeByte 0xFF) :=
  ⟨by rfl, by rfl, by rfl⟩

theorem witness_StepRunsTheIssuedCommand :
    State.Issues { ready with port := [.word 0x3001, .pass] } 0x3001 [.pass] ∧ decodeCommand 0x3001 = .ok .armW1 :=
  ⟨⟨rfl, rfl, rfl⟩, by rfl⟩

theorem witness_StepRunsTheServicedMicroStep :
    (pending 0x03).inited = true ∧ (pending 0x03).NoFault ∧ (pending 0x03).ip = true ∧ (pending 0x03).ie = true ∧
      decodeTag (pending 0x03).state = .ok .hW1Low := ⟨rfl, rfl, rfl, rfl, by rfl⟩

/-- A boundary passes in each way: an empty port, `pass` on the port, a held host. -/
theorem passes_empty : ready.HostPasses [] := ⟨rfl, .inr (.inl ⟨rfl, rfl⟩)⟩
theorem passes_pass : State.HostPasses { ready with port := [.pass, .word 0x0000] } [.word 0x0000] := ⟨rfl, .inr (.inr ⟨rfl, rfl⟩)⟩
theorem passes_held : State.HostPasses { busy with act := .writeBit, port := [.word 0x4000] } [.word 0x4000] :=
  ⟨rfl, .inl ⟨nofun, rfl⟩⟩

/-- No match at `CNT = 23`, `CMP = 64`; a match at 63. -/
theorem witness_TickCountsAndMatches :
    (ready.serviceEnabled = false ∧ ready.HostPasses [] ∧ ready.inited = true ∧ ready.NoFault ∧ ready.tRun = true ∧
      ready.tPeriodic = true ∧ (ready.cnt + 1) % 2 ^ ready.cfg.w ≠ ready.cmp) ∧
    (∃ s : State, s.serviceEnabled = false ∧ s.HostPasses [] ∧ s.inited = true ∧ s.NoFault ∧ s.tRun = true ∧
      s.tPeriodic = true ∧ (s.cnt + 1) % 2 ^ s.cfg.w = s.cmp) :=
  ⟨⟨rfl, passes_empty, rfl, rfl, rfl, rfl, by decide⟩,
    ⟨{ ready with cnt := 63 }, rfl, ⟨rfl, .inr (.inl ⟨rfl, rfl⟩)⟩, rfl, rfl, rfl, rfl, rfl⟩⟩

theorem witness_StoppedTimerTakesNoStep :
    (∃ s : State, s.serviceEnabled = false ∧ s.HostPasses [] ∧ s.tRun = false) ∧
    (∃ s : State, s.serviceEnabled = false ∧ s.HostPasses [] ∧ s.inited = false) ∧
    (∃ s : State, s.serviceEnabled = false ∧ s.HostPasses [] ∧ s.fault ≠ 0) :=
  ⟨⟨{ ready with tRun := false }, rfl, ⟨rfl, .inr (.inl ⟨rfl, rfl⟩)⟩, rfl⟩,
    ⟨cold, rfl, ⟨rfl, .inr (.inl ⟨rfl, rfl⟩)⟩, rfl⟩, ⟨failed, rfl, ⟨rfl, .inr (.inl ⟨rfl, rfl⟩)⟩, by decide⟩⟩

/-- The stop happens, and does not happen with the timer stopped. -/
theorem witness_OnlyNonPeriodicTimerStops :
    step { ready with tPeriodic := false } = .fault .timerNotPeriodic ∧
      nextOf (step { ready with tPeriodic := false, tRun := false }) ≠ none := ⟨by rfl, by decide⟩

/-- The delay law at both ends of its range, `W = 8`. -/
theorem witness_DelayLaw : ∀ n : Nat, n = 1 ∨ n = 255 → 1 ≤ n ∧ n ≤ 2 ^ ({ ready with cnt := 0, cmp := n } : State).cfg.w - 1 := by
  rintro n (rfl | rfl) <;> decide

/-- What R42 and the widths say holds of `ready`, of an operation in flight and before INIT. -/
theorem ready_inv : ready.Inv := ⟨by decide, by decide, by decide, rfl, fun h => absurd rfl h, fun _ _ => ⟨by decide, rfl, rfl, rfl, rfl⟩⟩
theorem pending_inv (t : Byte) (h : t.toNat < 8) : (pending t).Inv :=
  ⟨by change 23 < 2 ^ 8; decide, by change 64 < 2 ^ 8; decide, by change 0 ≤ 5; decide, rfl, fun h => absurd rfl h,
    fun _ _ => ⟨h, rfl, rfl, rfl, rfl⟩⟩

theorem witness_InitIsIdempotent :
    (ready.Inv ∧ ready.NoFault ∧ ready.inited = true ∧ ready.state = 0x00) ∧ (∃ t, exec .init ready = .next t ∧ t.NoFault) :=
  ⟨⟨ready_inv, rfl, rfl, rfl⟩, ⟨_, rfl, by decide⟩⟩

theorem witness_CommandsBeforeInitFault :
    cold.NoFault ∧ cold.inited = false ∧ encode (.writeBit true) = .cmd 0x8001 ∧ encode .readByte = .cmd 0xB000 := by decide

theorem witness_FaultsAreStickyAndFinal : failed.fault ≠ 0 ∧ Instr.isCommand .nop = true := by decide

/-- A serviced event for each legal tag, and for the first and the last illegal one. -/
def ServicedTag (t : Byte) : Prop := ∃ s : State, s.serviceEnabled = true ∧ s.state = t ∧ s.dir = (t == 0x01 || t == 0x03 || t == 0x05)

theorem servicedTag (t : Byte) : ServicedTag t := ⟨pending t, rfl, rfl, rfl⟩

theorem witness_IdleEventDoesNothing : ServicedTag 0x00 := servicedTag _
theorem witness_WriteZeroMicroSteps : ServicedTag 0x01 ∧ ServicedTag 0x02 := ⟨servicedTag _, servicedTag _⟩
theorem witness_WriteOneMicroSteps : ServicedTag 0x03 ∧ ServicedTag 0x04 := ⟨servicedTag _, servicedTag _⟩
theorem witness_ReadMicroSteps : ServicedTag 0x05 ∧ ServicedTag 0x07 := ⟨servicedTag _, servicedTag _⟩
theorem witness_SampleMicroStepAloneWritesSampled :
    ServicedTag 0x06 ∧ (∃ s t : State, step s = .next t ∧ t.sampled ≠ s.sampled) :=
  ⟨servicedTag _, { pending 0x06 with sampled := false }, _, rfl, by decide⟩
theorem witness_IllegalTagIsBadState : ServicedTag 0x08 ∧ ServicedTag 0xFF := ⟨servicedTag _, servicedTag _⟩

/-- Three events of a read operation, each taking up the tag the one before left. -/
theorem witness_EventsFollowTheTransitionTable :
    ∃ t0 t1 t2 : State, (pending 0x05).state.toNat < 8 ∧ (pending 0x05).Serves t0 ∧ (pending 0x06).state = t0.state ∧
      (pending 0x06).Serves t1 ∧ (pending 0x07).state = t1.state ∧ (pending 0x07).Serves t2 :=
  ⟨_, _, _, by decide, ⟨rfl, rfl⟩, rfl, ⟨rfl, rfl⟩, rfl, ⟨rfl, rfl⟩⟩

/-- Each clause of R113 that gives a level. -/
theorem witness_LineIsWiredAnd :
    (busy.inited = true ∧ busy.NoFault ∧ busy.dir = true ∧ busy.out = false) ∧
      (∃ s : State, s.inited = true ∧ s.NoFault ∧ s.dir = false ∧ s.devAt s.k = true) ∧
      (ready.inited = true ∧ ready.NoFault ∧ ready.dir = false ∧ ready.devAt ready.k = false) ∧
      (∃ s : State, s.inited = true ∧ s.NoFault ∧ s.dir = true ∧ s.out = true ∧ s.devAt s.k = false) :=
  ⟨by decide, ⟨{ ready with k := 101 }, rfl, rfl, rfl, rfl⟩, by decide, ⟨{ busy with out := true }, rfl, rfl, rfl, rfl, rfl⟩⟩

theorem witness_MasterNeverDrivesHigh : ∃ t, ready.Inv ∧ step ready = .next t ∧ t.inited = true ∧ t.NoFault :=
  ⟨_, ready_inv, rfl, rfl, rfl⟩

theorem witness_StepKeepsInv : ∃ t, (pending 0x05).Inv ∧ step (pending 0x05) = .next t :=
  ⟨_, pending_inv _ (by decide), rfl⟩

theorem witness_CommandsWriteOnlyTheirRegisters :
    (∃ t, Instr.isCommand .armRd = true ∧ exec .armRd ready = .next t ∧ t.fault = ready.fault) ∧
      (∃ t, exec .armRd busy = .next t ∧ t.fault ≠ busy.fault) := ⟨⟨_, rfl, rfl, rfl⟩, ⟨_, rfl, by decide⟩⟩

theorem witness_MicroStepsWriteOnlyTheirRegisters : ∃ t, Instr.isCommand .hRdSample = false ∧ exec .hRdSample (pending 0x06) = .next t :=
  ⟨_, rfl, rfl⟩

/-- Each of the three ways in which STATE changes. -/
theorem witness_StateHasOneOwnerAtATime :
    (∃ t, step (pending 0x07) = .next t ∧ t.state ≠ (pending 0x07).state) ∧
      (∃ s t : State, step s = .next t ∧ t.state ≠ s.state ∧ s.state = 0x00) ∧
      (∃ s t : State, step s = .next t ∧ t.state ≠ s.state ∧ s.inited = false) :=
  ⟨⟨_, rfl, by decide⟩, ⟨{ ready with port := [.word 0x3001] }, _, rfl, by decide, rfl⟩,
    ⟨{ cold with port := [.word 0x1000] }, _, rfl, by decide, rfl⟩⟩

theorem witness_ControlBitsAreNotCleared :
    ∃ s t : State, step s = .next t ∧ s.ie = true ∧ s.tPeriodic = true ∧ s.inited = true ∧ s.tRun = true ∧ t.tRun = false :=
  ⟨{ ready with port := [.word 0x1000], cfg := refStopped }, _, rfl, rfl, rfl, rfl, rfl, rfl⟩

theorem witness_OnlyInitWritesOut : ∃ s t : State, step s = .next t ∧ t.out ≠ s.out :=
  ⟨{ cold with out := true, port := [.word 0x1000] }, _, rfl, by decide⟩

theorem witness_PendingFlagIsSetByMatchClearedByService :
    (∃ s t : State, step s = .next t ∧ s.ip = false ∧ t.ip = true) ∧
      (∃ t, step (pending 0x01) = .next t ∧ (pending 0x01).ip = true ∧ t.ip = false) :=
  ⟨⟨{ ready with cnt := 63 }, _, rfl, rfl, rfl⟩, ⟨_, rfl, rfl, rfl⟩⟩

theorem witness_ParametersAndEnvironmentAreFixed : ∃ t, step (pending 0x01) = .next t := ⟨_, rfl⟩

/-- A step that takes no time, and one that passes the boundary. -/
theorem witness_TimePassesOnlyAtBoundaries :
    (∃ t, step (pending 0x01) = .next t ∧ t.k = (pending 0x01).k) ∧ (∃ t, step ready = .next t ∧ t.k = ready.k + 1) :=
  ⟨⟨_, rfl, rfl⟩, ⟨_, rfl, rfl⟩⟩

theorem witness_ServicePrecedesTheHost :
    ∃ s t : State, step s = .next t ∧ s.inited = true ∧ s.NoFault ∧ s.ie = true ∧ t.port ≠ s.port :=
  ⟨{ ready with port := [.word 0x2000] }, _, rfl, rfl, rfl, rfl, by decide⟩

theorem witness_CompositesCompleteInIdle :
    ∃ s t : State, step s = .next t ∧ s.act ≠ .idle ∧ t.act = .idle ∧ t.NoFault ∧ s.ie = true :=
  ⟨{ ready with act := .writeBit }, _, rfl, nofun, rfl, rfl, rfl⟩

theorem ready_slotReady : ready.SlotReady := ⟨⟨rfl, rfl, rfl, rfl, rfl, rfl⟩, rfl, rfl, rfl⟩

/-- `ready` meets the hypotheses of both forms, its port being empty. -/
theorem witness_WriteOneSlotTakesAPlusB : ready.SlotReady ∧ ready.port = [] := ⟨ready_slotReady, rfl⟩
theorem witness_WriteZeroSlotTakesW0LowPlusD : ready.SlotReady ∧ ready.port = [] := ⟨ready_slotReady, rfl⟩
theorem witness_ReadSlotReturnsLineAtAPlusE : ready.SlotReady ∧ ready.port = [] := ⟨ready_slotReady, rfl⟩

/-- A byte command issued with the timer running, and with it stopped. -/
def ByteStates : Prop :=
  ∀ r : Bool, State.SlotReady { ({ ready with tRun := r } : State) with tRun := true }

theorem witness_WriteByteTakesTheSumOfItsSlots : ByteStates := fun _ => ready_slotReady
theorem witness_ReadByteReturnsTheSampledByte : ByteStates := fun _ => ready_slotReady

/-- A held host with the timer stopped and one with the interrupt disabled; the states from which WRITE_BIT and READ_BIT come
into such a wait. -/
theorem witness_UnservicedWaitHangsTheHost :
    State.Unserviced { busy with act := .writeBit, tRun := false } ∧
      State.Unserviced { busy with act := .readByteWait 0x00 7, ie := false, ip := true } ∧
      (∃ s : State, s.inited = true ∧ s.NoFault ∧ s.state = 0x00 ∧ s.tRun = false ∧ s.ip = false) ∧
      (∃ s : State, s.inited = true ∧ s.NoFault ∧ s.state = 0x00 ∧ s.ie = false ∧ s.tPeriodic = true) := by
  refine ⟨⟨rfl, rfl, rfl, ?_, .inl ⟨rfl, rfl⟩⟩, ⟨rfl, rfl, rfl, ?_, .inr ⟨rfl, fun _ => rfl⟩⟩,
    ⟨{ ready with tRun := false }, rfl, rfl, rfl, rfl, rfl⟩, ⟨{ ready with ie := false }, rfl, rfl, rfl, rfl, rfl⟩⟩
  all_goals
    change (0x03 : Byte) ≠ 0x00
    decide

theorem witness_ResetAllowsOnlyNopAndInit : Instr.isCommand .readByte = true ∧ Instr.readByte ≠ .nop ∧ Instr.readByte ≠ .init := by decide

end Sys2Proof.Tests
end

section
/-! The obligations of 00_scope: time (R10) and configurations (R6, R7). -/

namespace Sys2Proof

/-- The check made before any run, in full: the configuration it gives is the one with these parameters (R302). -/
theorem Params.toConfig?_eq_some_iff (p : Params) (c : Config) : p.toConfig? = some c ↔ c.toParams = p := by
  constructor
  · intro h
    unfold Params.toConfig? at h
    split at h
    · cases h
      rfl
    · cases h
  · rintro rfl
    exact dif_pos c.ok

/-- Exactly the valid parameter records are those of a configuration (R7). -/
theorem Params.exists_config_iff_valid (p : Params) : (∃ c : Config, c.toParams = p) ↔ p.Valid := by
  constructor
  · rintro ⟨c, rfl⟩
    exact c.ok
  · intro h
    exact ⟨{ toParams := p, ok := h }, rfl⟩

namespace Machine

/-- A serviced event takes no time. -/
theorem MicroEffect.k_eq {s t : State} (h : MicroEffect s t) : t.k = s.k := by
  cases h <;> rfl

/-- A command takes no time. -/
theorem CommandEffect.k_eq {s t : State} {i : Instr} (h : CommandEffect s i t) : t.k = s.k := by
  cases h <;> rfl

/-- A primitive of the host's composite command takes no time. -/
theorem HostEffect.k_eq {s t : State} (h : HostEffect s t) : t.k = s.k := by
  cases h <;> rfl

/-- Settles O47, by the agents that can move in a step: only a passing boundary advances time. -/
theorem timePassesOnlyAtBoundaries : Obligations.TimePassesOnlyAtBoundaries := by
  intro s t h
  cases stepEffect_of_next h with
  | service _ h => exact .inl h.k_eq
  | badTag _ _ => exact .inl rfl
  | host _ _ _ h => exact .inl h.k_eq
  | command _ _ h => exact .inl h.k_eq
  | illegal _ _ => exact .inl rfl
  | illegalRefused _ _ => exact .inl rfl
  | boundaryOnly hs hp _ => exact .inr ⟨hs, hp, rfl⟩
  | matched hs hp _ _ => exact .inr ⟨hs, hp, rfl⟩
  | counted hs hp _ _ => exact .inr ⟨hs, hp, rfl⟩

/-- Settles O53: a configuration carries the proof that its parameters are valid, and the check builds it from one. -/
theorem configurationsAreValid : Obligations.ConfigurationsAreValid :=
  ⟨rfl, Params.exists_config_iff_valid, Params.toConfig?_eq_some_iff⟩

end Machine

end Sys2Proof
end

section
/-! The obligations of 10_state: who writes each register (R23 to R39) and the invariants (R42). -/

namespace Sys2Proof

/-- The tag of a variant, the structured reading read backwards (R22). -/
def Variant.tag : Variant → Tag
  | .idle => .idle
  | .writingZero .low => .write0Low
  | .writingZero .releasing => .write0Release
  | .writingOne .low => .write1Low
  | .writingOne .releasing => .write1Release
  | .reading .low => .readLow
  | .reading .sampling => .readSample
  | .reading .releasing => .readRelease

theorem Variant.tag_leftInverse : Function.LeftInverse Variant.tag Tag.variant := by
  intro t
  cases t <;> rfl

theorem Variant.tag_rightInverse : Function.RightInverse Variant.tag Tag.variant := by
  intro v
  cases v with
  | idle => rfl
  | writingZero p | writingOne p | reading p => cases p <;> rfl

theorem Tag.ofCode?_code (t : Tag) : Tag.ofCode? t.code = some t := by
  cases t <;> rfl

/-- The values of `STATE` that hold no tag are 0x08 to 0xFF (R84, R86). -/
theorem Tag.ofCode?_eq_none_iff (b : Byte) : Tag.ofCode? b = none ↔ 8 ≤ b.toNat := by
  have h : Tag.ofCode? b = none ↔
      b ≠ 0x00 ∧ b ≠ 0x01 ∧ b ≠ 0x02 ∧ b ≠ 0x03 ∧ b ≠ 0x04 ∧ b ≠ 0x05 ∧ b ≠ 0x06 ∧ b ≠ 0x07 := by
    simp [Tag.ofCode?, Tag.code, eq_comm (b := b)]
  rw [h]
  bv_omega

/-- Settles O8, by the inverse of the structured reading. -/
theorem tagsAndVariantsCorrespond : Obligations.TagsAndVariantsCorrespond :=
  ⟨Function.bijective_iff_has_inverse.2 ⟨Variant.tag, Variant.tag_leftInverse, Variant.tag_rightInverse⟩,
    Tag.ofCode?_code, Tag.ofCode?_eq_none_iff⟩

/-- Every tag's code is a legal value of `STATE` (R84). -/
theorem Tag.code_toNat_lt (t : Tag) : t.code.toNat < 8 := by
  cases t <;> decide

/-- A delay that can be programmed is a W-bit value (R7, R26). -/
theorem DelayFits.lt_two_pow {w n : Nat} (h : DelayFits w n) : n < 2 ^ w := by
  obtain ⟨h1, h2⟩ := h
  omega

namespace Machine

/-! ### The invariant -/

/-- The code a fault leaves in `FAULT` is one of 1 to 5 (R34, R241). -/
theorem FaultCode.bits_range (c : FaultCode) : c.bits ≠ 0 ∧ c.bits.toNat ≤ 5 := by
  cases c <;> decide

theorem Slot.tag_toNat_lt (sl : Slot) : sl.tag.toNat < 8 := by
  cases sl <;> decide

/-- Recording a fault keeps the invariant: R42 claims nothing any more (R34, R42). -/
theorem State.Inv.of_faulted {s t : State} (h : s.Inv) (hcnt : t.cnt = s.cnt) (hcmp : t.cmp = s.cmp)
    (hcfg : t.cfg = s.cfg) (hi : t.inited = s.inited) (ha : t.act = s.act ∨ t.act = .idle)
    (c : FaultCode) (hf : t.fault = c.bits) : t.Inv where
  cntFits := by rw [hcnt, hcfg]; exact h.cntFits
  cmpFits := by rw [hcmp, hcfg]; exact h.cmpFits
  faultCode := hf ▸ c.bits_range.2
  slotInRange := by
    rcases ha with ha | ha <;> rw [ha]
    · exact h.slotInRange
    · rfl
  busyInited hb := by
    rcases ha with ha | ha
    · rw [hi]
      exact h.busyInited (ha ▸ hb)
    · exact absurd ha hb
  live _ h0 := absurd (hf.symm.trans h0) c.bits_range.1

/-- The four writes of arming keep the invariant: a Low tag, the pin driven, a delay that fits (R180, R42 I3). -/
theorem State.Inv.of_armed {s : State} (h : s.Inv) (hi : s.inited = true) (sl : Slot) {a : HostAct}
    (ha : a.slotInRange = true) :
    State.Inv { s with cnt := 0, cmp := sl.delay s.cfg, state := sl.tag, dir := true, act := a } :=
  { h with
    cntFits := Nat.two_pow_pos _
    cmpFits := (sl.delay_fits s.cfg).lt_two_pow
    slotInRange := ha
    busyInited := fun _ => hi
    live := fun hi hf => { h.live hi hf with
      legalTag := sl.tag_toNat_lt
      drivesInLowPhase := by cases sl <;> rfl } }

/-- The event that ends a Low phase keeps the invariant: it releases the pin (R152, R154, R156). -/
theorem State.Inv.of_released {s : State} (h : s.Inv) {n : Nat} (hn : DelayFits s.cfg.w n) (tag : Tag)
    (hl : ({ s with state := tag.code } : State).inLowPhase = false) :
    State.Inv { s with ip := false, dir := false, cmp := n, state := tag.code } :=
  { h with
    cmpFits := hn.lt_two_pow
    live := fun hi hf => { h.live hi hf with legalTag := tag.code_toNat_lt, drivesInLowPhase := hl.symm } }

/-- Serviced events keep the invariant: each releases the pin as it leaves a Low phase (R42 I3). -/
theorem MicroEffect.keeps_inv {s t : State} (h : MicroEffect s t) (hs : s.Inv) : t.Inv := by
  obtain ⟨-, -, hB, -, hD, hE, hF, -⟩ := s.cfg.ok
  /- outside the Low phases the pin is released already, and the event leaves it so -/
  have released (hl : s.inLowPhase = false) (hi : s.inited = true) (hf : s.NoFault) : s.dir = false :=
    (hs.live hi hf).drivesInLowPhase.trans hl
  cases h with
  | idle _ => exact { hs with live := fun hi hf => { hs.live hi hf with } }
  | writeZeroLow _ => exact hs.of_released hD .write0Release rfl
  | writeOneLow _ => exact hs.of_released hB .write1Release rfl
  | readLow _ => exact hs.of_released hE .readSample rfl
  | sample h =>
    exact { hs with
      cmpFits := hF.lt_two_pow
      live := fun hi hf => { hs.live hi hf with
        legalTag := Tag.readRelease.code_toNat_lt
        drivesInLowPhase := released (by rw [State.inLowPhase, h]; rfl) hi hf } }
  | release h =>
    exact { hs with
      live := fun hi hf => { hs.live hi hf with
        legalTag := Tag.idle.code_toNat_lt
        drivesInLowPhase := released (by rcases h with h | h | h <;> rw [State.inLowPhase, h] <;> rfl) hi hf } }

/-- How the host goes on after a primitive arming command is at no slot of a byte. -/
theorem slotInRange_of_armsOf {i : Instr} {sl : Slot} {a : HostAct} (h : armsOf i = some (sl, a)) :
    a.slotInRange = true := by
  cases i <;> cases h <;> rfl

/-- Commands keep the invariant. -/
theorem CommandEffect.keeps_inv {s t : State} {i : Instr} (h : CommandEffect s i t) (hs : s.Inv) : t.Inv := by
  cases h with
  | refused _ | nop _ | waitDone _ _ _ => exact hs
  | beforeInit _ _ _ _ => exact hs.of_faulted rfl rfl rfl rfl (.inl rfl) .useBeforeInit rfl
  | initInflight _ _ _ => exact hs.of_faulted rfl rfl rfl rfl (.inl rfl) .initInflight rfl
  | reentry _ _ _ _ => exact hs.of_faulted rfl rfl rfl rfl (.inr rfl) .reentry rfl
  | init _ _ =>
    exact { hs with
      busyInited := fun _ => rfl
      live := fun _ _ => ⟨Tag.idle.code_toNat_lt, rfl, rfl, rfl, rfl⟩ }
  | armed _ hi _ ha => exact hs.of_armed hi _ (slotInRange_of_armsOf ha)
  | start _ _ | rdState _ _ | rdSample _ _ => exact { hs with live := fun hi hf => { hs.live hi hf with } }
  | waitHeld _ hi _ | writeByte _ hi | readByte _ hi =>
    exact { hs with
      slotInRange := rfl
      busyInited := fun _ => hi
      live := fun hi hf => { hs.live hi hf with } }

/-- The host's primitives inside a composite command keep the invariant. -/
theorem HostEffect.keeps_inv {s t : State} (h : HostEffect s t) (hs : s.Inv) : t.Inv := by
  cases h with
  | waitOver hp ha _ =>
    exact { hs with
      slotInRange := ha hs.slotInRange
      busyInited := fun _ => hp.1
      live := fun hi hf => { hs.live hi hf with } }
  | armed _ hi _ ha _ => exact hs.of_armed hi _ (ha hs.slotInRange)
  | refused hf =>
    exact { hs with slotInRange := rfl, busyInited := fun hb => absurd rfl hb, live := fun _ h => absurd h hf }
  | beforeInit _ _ => exact hs.of_faulted rfl rfl rfl rfl (.inr rfl) .useBeforeInit rfl
  | reentry _ _ _ => exact hs.of_faulted rfl rfl rfl rfl (.inr rfl) .reentry rfl

/-- Settles O50, by the agents that can move in a step. -/
theorem stepKeepsInv : Obligations.StepKeepsInv := by
  intro s t hs h
  cases stepEffect_of_next h with
  | service _ h => exact h.keeps_inv hs
  | badTag _ _ => exact hs.of_faulted rfl rfl rfl rfl (.inl rfl) .badState rfl
  | illegal _ _ => exact hs.of_faulted rfl rfl rfl rfl (.inl rfl) .illegalCommand rfl
  | host _ _ _ h => exact h.keeps_inv hs
  | command _ _ h => exact h.keeps_inv { hs with live := fun hi hf => { hs.live hi hf with } }
  | illegalRefused _ _ | boundaryOnly _ _ _ => exact { hs with live := fun hi hf => { hs.live hi hf with } }
  | matched _ _ _ _ =>
    exact { hs with cntFits := Nat.two_pow_pos _, live := fun hi hf => { hs.live hi hf with } }
  | counted _ _ _ _ =>
    exact { hs with
      cntFits := Nat.mod_lt _ (Nat.two_pow_pos _)
      live := fun hi hf => { hs.live hi hf with } }

/-- Settles O51: before INIT only the ranges of the registers are claimed. -/
theorem resetMeetsInv : Obligations.ResetMeetsInv where
  cntFits := Nat.mod_lt _ (Nat.two_pow_pos _)
  cmpFits := Nat.mod_lt _ (Nat.two_pow_pos _)
  faultCode := by decide
  slotInRange := rfl
  busyInited hb := absurd rfl hb
  live hi := nomatch hi

/-! ### Who writes a register -/

/-- A serviced event changes `STATE` only outside Idle (R151). -/
theorem MicroEffect.state_ne_idle {s t : State} (h : MicroEffect s t) (hne : t.state ≠ s.state) : s.state ≠ 0x00 := by
  cases h with
  | idle _ => exact absurd rfl hne
  | writeZeroLow h | writeOneLow h | readLow h | sample h => rw [h]; decide
  | release h => rcases h with h | h | h <;> rw [h] <;> decide

/-- `t` is `s` with a slot armed, as far as `STATE` and `DIR` go: from Idle to a Low tag, the pin driven (R180). -/
def State.ArmedFrom (s t : State) : Prop :=
  s.state = 0x00 ∧ (t.state = 0x01 ∨ t.state = 0x03 ∨ t.state = 0x05) ∧ t.dir = true

/-- The host changes `STATE` inside a composite command only by arming a slot. -/
theorem HostEffect.armedFrom {s t : State} (h : HostEffect s t) (hne : t.state ≠ s.state) : s.ArmedFrom t := by
  cases h with
  | @armed sl _ _ _ h0 _ _ => exact ⟨h0, sl.tag_cases, rfl⟩
  | waitOver _ _ _ | refused _ | beforeInit _ _ | reentry _ _ _ => exact absurd rfl hne

/-- A command changes `STATE` only as the first INIT, or by arming a slot (R23). -/
theorem CommandEffect.state_cases {s t : State} {i : Instr} (h : CommandEffect s i t) (hne : t.state ≠ s.state) :
    (i = .init ∧ s.inited = false ∧ t.inited = true ∧ t.state = 0x00) ∨
      ((∃ p, armsOf i = some p) ∧ s.ArmedFrom t) := by
  cases h with
  | init _ h =>
    rcases h with h | h
    · exact .inl ⟨rfl, h, rfl, rfl⟩
    · exact absurd h.symm hne
  | @armed _ sl _ _ _ h0 ha => exact .inr ⟨⟨_, ha⟩, h0, sl.tag_cases, rfl⟩
  | _ => exact absurd rfl hne

/-- Settles O42, by the agents that can move in a step: each writes `STATE` in the phase that is its own. -/
theorem stateHasOneOwnerAtATime : Obligations.StateHasOneOwnerAtATime := by
  intro s t h hne
  cases stepEffect_of_next h with
  | service hs h => exact .inl ⟨hs, h.state_ne_idle hne, h.k_eq⟩
  | host hs _ hc h =>
    obtain ⟨h0, hlow, hdir⟩ := h.armedFrom hne
    exact .inr (.inl ⟨hs, h0, hlow, hdir, h.k_eq, .inl hc⟩)
  | @command w rest _ _ hi hd h =>
    rcases h.state_cases hne with ⟨rfl, hn, hin, h0⟩ | ⟨⟨p, ha⟩, h0, hlow, hdir⟩
    · exact .inr (.inr ⟨hn, hin, h0, h.k_eq, rest, word_of_decodeCommand_init hd ▸ hi⟩)
    · exact .inr (.inl ⟨hi.1, h0, hlow, hdir, h.k_eq, .inr ⟨w, rest, hi, word_of_arming hd ha⟩⟩)
  | _ => exact absurd rfl hne

/-- The control registers stay as they are, but that the timer may be started. -/
structure State.ControlKept (s t : State) : Prop where
  ie : t.ie = s.ie
  periodic : t.tPeriodic = s.tPeriodic
  inited : t.inited = s.inited
  out : t.out = s.out
  runs : s.tRun = true → t.tRun = true

/-- The control registers hold what INIT leaves in them (R230). -/
structure State.ControlInitialised (s t : State) : Prop where
  ie : t.ie = true
  periodic : t.tPeriodic = true
  inited : t.inited = true
  out : t.out = false
  runs : t.tRun = s.cfg.initRun

theorem MicroEffect.controlKept {s t : State} (h : MicroEffect s t) : s.ControlKept t := by
  cases h <;> exact ⟨rfl, rfl, rfl, rfl, id⟩

theorem HostEffect.controlKept {s t : State} (h : HostEffect s t) : s.ControlKept t := by
  cases h <;> exact ⟨rfl, rfl, rfl, rfl, id⟩

/-- Of the commands only INIT writes the control registers, beside those that start the timer (R210). -/
theorem CommandEffect.control_cases {s t : State} {i : Instr} (h : CommandEffect s i t) :
    s.ControlKept t ∨ (i = .init ∧ s.ControlInitialised t) := by
  cases h with
  | init _ _ => exact .inr ⟨rfl, rfl, rfl, rfl, rfl, rfl⟩
  | start _ _ | writeByte _ _ | readByte _ _ => exact .inl ⟨rfl, rfl, rfl, rfl, fun _ => rfl⟩
  | _ => exact .inl ⟨rfl, rfl, rfl, rfl, id⟩

/-- A step keeps the control registers, or it is the issue of INIT and sets them. -/
theorem control_cases_of_next {s t : State} (h : step s = .next t) :
    s.ControlKept t ∨ ((∃ rest, s.Issues 0x1000 rest) ∧ s.ControlInitialised t) := by
  cases stepEffect_of_next h with
  | service _ h => exact .inl h.controlKept
  | host _ _ _ h => exact .inl h.controlKept
  | @command w rest i _ hi hd h =>
    rcases h.control_cases with ⟨h1, h2, h3, h4, h5⟩ | ⟨rfl, h1, h2, h3, h4, h5⟩
    · exact .inl ⟨h1, h2, h3, h4, h5⟩
    · exact .inr ⟨⟨rest, word_of_decodeCommand_init hd ▸ hi⟩, h1, h2, h3, h4, h5⟩
  | _ => exact .inl ⟨rfl, rfl, rfl, rfl, id⟩

/-- Settles O43: a step that is not INIT keeps the control bits, and INIT sets all of them but T_RUN. -/
theorem controlBitsAreNotCleared : Obligations.ControlBitsAreNotCleared := by
  intro s t h
  rcases control_cases_of_next h with hk | ⟨hi, ht⟩
  · exact ⟨hk.ie.trans, hk.periodic.trans, hk.inited.trans, fun h1 h0 => absurd ((hk.runs h1).symm.trans h0) nofun⟩
  · exact ⟨fun _ => ht.ie, fun _ => ht.periodic, fun _ => ht.inited, fun _ h0 => ⟨hi, ht.runs.symm.trans h0⟩⟩

/-- Settles O44: every other step keeps the control registers, OUT among them. -/
theorem onlyInitWritesOut : Obligations.OnlyInitWritesOut := by
  intro s t h hne
  rcases control_cases_of_next h with hk | ⟨hi, ht⟩
  · exact absurd hk.out hne
  · exact ⟨hi, ht.out⟩

theorem MicroEffect.fixed {s t : State} (h : MicroEffect s t) : t.cfg = s.cfg ∧ t.env = s.env := by
  cases h <;> exact ⟨rfl, rfl⟩

theorem HostEffect.fixed {s t : State} (h : HostEffect s t) : t.cfg = s.cfg ∧ t.env = s.env := by
  cases h <;> exact ⟨rfl, rfl⟩

theorem CommandEffect.fixed {s t : State} {i : Instr} (h : CommandEffect s i t) : t.cfg = s.cfg ∧ t.env = s.env := by
  cases h <;> exact ⟨rfl, rfl⟩

/-- Settles O46, by the agents that can move in a step. -/
theorem parametersAndEnvironmentAreFixed : Obligations.ParametersAndEnvironmentAreFixed := by
  intro s t h
  cases stepEffect_of_next h with
  | service _ h => exact h.fixed
  | host _ _ _ h => exact h.fixed
  | command _ _ h => exact h.fixed
  | _ => exact ⟨rfl, rfl⟩

/-! ### The pending event -/

/-- The host does not touch `IP` inside a composite command. -/
theorem HostEffect.ip_eq {s t : State} (h : HostEffect s t) : t.ip = s.ip := by
  cases h <;> rfl

/-- No command touches `IP`. -/
theorem CommandEffect.ip_eq {s t : State} {i : Instr} (h : CommandEffect s i t) : t.ip = s.ip := by
  cases h <;> rfl

/-- What a step can do to `IP`: SERVICE was enabled, `IP` stays, or a passing boundary matched (R29, R250). -/
theorem ip_cases_of_next {s t : State} (h : step s = .next t) :
    s.serviceEnabled = true ∨ t.ip = s.ip ∨
      (t.ip = true ∧ s.tickEnabled = true ∧ (s.cnt + 1) % 2 ^ s.cfg.w = s.cmp ∧ t.cnt = 0 ∧ t.k = s.k + 1) := by
  cases stepEffect_of_next h with
  | service hs _ | badTag hs _ => exact .inl hs
  | host _ _ _ h => exact .inr (.inl h.ip_eq)
  | command _ _ h => exact .inr (.inl h.ip_eq)
  | matched _ _ ht hm => exact .inr (.inr ⟨rfl, ht, hm, rfl, rfl⟩)
  | illegal _ _ | illegalRefused _ _ | boundaryOnly _ _ _ | counted _ _ _ _ => exact .inr (.inl rfl)

/-- Settles O45, by what a step can do to `IP`. -/
theorem pendingFlagIsSetByMatchClearedByService : Obligations.PendingFlagIsSetByMatchClearedByService := by
  intro s t h
  rcases ip_cases_of_next h with hs | heq | ⟨hset, hmatch⟩
  · have hip : s.ip = true := ((State.serviceEnabled_iff s).1 hs).2.2.1
    exact ⟨fun h0 => absurd (hip.symm.trans h0) nofun, fun _ _ => hs⟩
  · exact ⟨fun h0 h1 => absurd (h1.symm.trans (heq.trans h0)) nofun,
      fun h1 h0 => absurd (h1.symm.trans (heq.symm.trans h0)) nofun⟩
  · exact ⟨fun _ _ => hmatch, fun _ h0 => absurd (hset.symm.trans h0) nofun⟩

/-- Where SERVICE could be enabled and is not, no event is pending (R150). -/
theorem State.no_pending_of_not_service {s : State} (hi : s.inited = true) (hf : s.NoFault) (he : s.ie = true)
    (hs : s.serviceEnabled = false) : s.ip = false := by
  refine Bool.eq_false_iff.2 fun hip => ?_
  exact absurd (hs.symm.trans ((State.serviceEnabled_iff s).2 ⟨hi, hf, hip, he⟩)) nofun

theorem MicroEffect.host_eq {s t : State} (h : MicroEffect s t) : t.port = s.port ∧ t.act = s.act ∧ t.rsp = s.rsp := by
  cases h <;> exact ⟨rfl, rfl, rfl⟩

/-- A step while SERVICE is enabled leaves the host as it is (R253). -/
theorem host_eq_of_serves {s t : State} (h : s.Serves t) : t.port = s.port ∧ t.act = s.act ∧ t.rsp = s.rsp := by
  obtain ⟨hs, h⟩ := h
  cases stepEffect_of_next h with
  | service _ h => exact h.host_eq
  | badTag _ _ => exact ⟨rfl, rfl, rfl⟩
  | host hn _ _ _ | boundaryOnly hn _ _ | matched hn _ _ _ | counted hn _ _ _ =>
    exact absurd (hs.symm.trans hn) nofun
  | command hi _ _ | illegal hi _ | illegalRefused hi _ => exact absurd (hs.symm.trans hi.1) nofun

/-- Settles O48: a step that moves the host is not SERVICE's, and SERVICE goes first. -/
theorem servicePrecedesTheHost : Obligations.ServicePrecedesTheHost := by
  intro s t h hi hf he hmoved
  refine State.no_pending_of_not_service hi hf he (Bool.eq_false_iff.2 fun hs => ?_)
  obtain ⟨hport, hact, hrsp⟩ := host_eq_of_serves ⟨hs, h⟩
  exact hmoved.elim (· hport) (·.elim (· hact) (· hrsp))

/-- A composite command ends without a fault only when a wait is over: after INIT, with `STATE` IDLE (R189). -/
theorem HostEffect.idle_of_completes {s t : State} (h : HostEffect s t) (ha : t.act = .idle) (hf : t.NoFault) :
    s.inited = true ∧ s.fault = 0 ∧ t.state = 0x00 := by
  cases h with
  | waitOver hp _ _ => exact hp
  | armed _ _ _ _ hne => exact absurd ha hne
  | refused h => exact absurd hf h
  | beforeInit _ _ | reentry _ _ _ => cases hf

/-- Settles O49: a composite command completes by a step of the host, and SERVICE would have gone first. -/
theorem compositesCompleteInIdle : Obligations.CompositesCompleteInIdle := by
  intro s t h hbusy hidle hf he
  cases stepEffect_of_next h with
  | service _ h => exact absurd (h.host_eq.2.1.symm.trans hidle) hbusy
  | host hs _ _ h =>
    obtain ⟨hi, hf0, h0⟩ := h.idle_of_completes hidle hf
    exact ⟨h0, h.ip_eq.trans (State.no_pending_of_not_service hi hf0 he hs)⟩
  | command hi _ _ => exact absurd hi.2.1 hbusy
  | badTag _ _ | illegal _ _ | illegalRefused _ _ | boundaryOnly _ _ _ | matched _ _ _ _ | counted _ _ _ _ =>
    exact absurd hidle hbusy

end Machine

end Sys2Proof
end

section
/-! The obligations of 20_memory: the core has no memory, and what a command leaves unchanged is its registers (R61). -/

namespace Sys2Proof.Machine

/-- A command whose execution answers a next state has one of the effects. -/
theorem commandEffect_of_exec {i : Instr} {s t : State} (hc : i.isCommand = true) (h : exec i s = .next t) :
    CommandEffect s i t := by
  obtain ⟨u, hu, hm⟩ := exec_command i hc s
  rw [hu] at h
  cases h
  exact hm

/-- No command touches `SAMPLED`, which only H_RD_SAMPLE writes, nor the host's words, which its issue took. -/
theorem CommandEffect.sampled_port_eq {s t : State} {i : Instr} (h : CommandEffect s i t) :
    t.sampled = s.sampled ∧ t.port = s.port := by
  cases h <;> exact ⟨rfl, rfl⟩

/-- The timer is started or stopped only by INIT, START and the byte commands, whose first primitive is START. -/
theorem CommandEffect.tRun_eq {s t : State} {i : Instr} (h : CommandEffect s i t) (hinit : i ≠ .init)
    (hstart : i ≠ .start) (hread : i ≠ .readByte) (hwrite : ∀ b, i ≠ .writeByte b) : t.tRun = s.tRun := by
  cases h with
  | init _ _ => exact absurd rfl hinit
  | start _ _ => exact absurd rfl hstart
  | readByte _ _ => exact absurd rfl hread
  | writeByte _ _ => exact absurd rfl (hwrite _)
  | _ => rfl

/-- The arming commands are the three primitive ones and the two bit operations (R83, R187, R188). -/
theorem armsOf_eq_none {i : Instr} (hw0 : i ≠ .armW0) (hw1 : i ≠ .armW1) (hrd : i ≠ .armRd) (hread : i ≠ .readBit)
    (hwrite : ∀ v, i ≠ .writeBit v) : armsOf i = none := by
  cases i with
  | armW0 => exact absurd rfl hw0
  | armW1 => exact absurd rfl hw1
  | armRd => exact absurd rfl hrd
  | readBit => exact absurd rfl hread
  | writeBit v => exact absurd rfl (hwrite v)
  | _ => rfl

/-- A command that arms no slot leaves the counter and the compare value, and unless it is INIT the tag and the pin. -/
theorem CommandEffect.slot_eq {s t : State} {i : Instr} (h : CommandEffect s i t) (harms : armsOf i = none) :
    t.cnt = s.cnt ∧ t.cmp = s.cmp ∧ (i ≠ .init → t.state = s.state ∧ t.dir = s.dir) := by
  cases h with
  | armed _ _ _ ha => exact nomatch harms.symm.trans ha
  | init _ _ => exact ⟨rfl, rfl, absurd rfl⟩
  | _ => exact ⟨rfl, rfl, fun _ => ⟨rfl, rfl⟩⟩

/-- Only the two reads write a response (R90). -/
theorem CommandEffect.rsp_eq {s t : State} {i : Instr} (h : CommandEffect s i t) (hstate : i ≠ .rdState)
    (hsample : i ≠ .rdSample) : t.rsp = s.rsp := by
  cases h with
  | rdState _ _ => exact absurd rfl hstate
  | rdSample _ _ => exact absurd rfl hsample
  | _ => rfl

/-- The host does not move by a command that neither arms a slot nor is composite (R89). -/
theorem CommandEffect.act_eq {s t : State} {i : Instr} (h : CommandEffect s i t)
    (hi : i = .nop ∨ i = .init ∨ i = .start ∨ i = .rdState ∨ i = .rdSample) : t.act = s.act := by
  have harms : armsOf i = none := by rcases hi with rfl | rfl | rfl | rfl | rfl <;> rfl
  cases h with
  | armed _ _ _ ha | reentry _ _ _ ha => exact nomatch harms.symm.trans ha
  | waitHeld _ _ _ | writeByte _ _ | readByte _ _ => simp at hi
  | _ => rfl

/-- A command keeps the fault and its info, or it records a new one and writes nothing else but `act` (R241). -/
theorem CommandEffect.fault_cases {s t : State} {i : Instr} (h : CommandEffect s i t) :
    (t.fault = s.fault ∧ t.diag = s.diag) ∨
      (t.fault ≠ s.fault ∧ t = { s with fault := t.fault, diag := t.diag, act := t.act }) := by
  cases h with
  | beforeInit hf _ _ _ | initInflight hf _ _ | reentry hf _ _ _ =>
    exact .inr ⟨by simp [hf], rfl⟩
  | _ => exact .inl ⟨rfl, rfl⟩

/-- Settles O40, clause by clause from the effects a command can have. -/
theorem commandsWriteOnlyTheirRegisters : Obligations.CommandsWriteOnlyTheirRegisters := by
  intro i s t hc hx
  have h := commandEffect_of_exec hc hx
  obtain ⟨hsampled, hport⟩ := h.sampled_port_eq
  obtain ⟨hcfg, henv⟩ := h.fixed
  have control (hinit : i ≠ .init) :
      t.out = s.out ∧ t.tPeriodic = s.tPeriodic ∧ t.ie = s.ie ∧ t.inited = s.inited := by
    rcases h.control_cases with hk | ⟨rfl, _⟩
    · exact ⟨hk.out, hk.periodic, hk.ie, hk.inited⟩
    · exact absurd rfl hinit
  refine ⟨⟨hsampled, h.ip_eq, h.k_eq, hport, henv, hcfg⟩, control, h.tRun_eq,
    fun hw0 hw1 hrd hread hwrite => h.slot_eq (armsOf_eq_none hw0 hw1 hrd hread hwrite), h.rsp_eq, h.act_eq, ?_⟩
  rcases h.fault_cases with ⟨hf, hd⟩ | ⟨hf, ht⟩
  · exact ⟨fun _ => hd, absurd hf⟩
  · exact ⟨fun h => absurd h hf, fun _ => ht⟩

end Sys2Proof.Machine
end

section
/-! The obligations of 30_encoding: the opcode map and the tag map (R83, R84) as a pair of inverse functions, the reserved
words (R85), the issue of a command word (R91). -/

namespace Sys2Proof

/-! ### Rows -/

/-- No word matches both rows (R83). -/
def Row.Disjoint {n : Nat} (r q : Row n) : Prop := ∀ w, ¬(r.accepts w = true ∧ q.accepts w = true)

theorem Row.accepts_iff {n : Nat} (r : Row n) (w : BitVec n) : r.accepts w = true ↔ w &&& r.mask = r.pattern :=
  beq_iff_eq

/-- Two rows whose patterns differ in a bit that both masks fix are disjoint. -/
theorem Row.disjoint_of_pattern_ne {n : Nat} {r q : Row n} (h : r.pattern &&& q.mask ≠ q.pattern &&& r.mask) :
    r.Disjoint q := by
  rintro w ⟨hr, hq⟩
  rw [Row.accepts_iff] at hr hq
  apply h
  calc r.pattern &&& q.mask = w &&& r.mask &&& q.mask := by rw [hr]
    _ = w &&& q.mask &&& r.mask := by rw [BitVec.and_assoc, BitVec.and_comm r.mask, BitVec.and_assoc]
    _ = q.pattern &&& r.mask := by rw [hq]

/-- A map any two of whose patterns differ in a bit that both rows fix. -/
theorem pairwise_disjoint_of_pattern_ne {n : Nat} {rows : List (Row n)}
    (h : rows.Pairwise fun r q => r.pattern &&& q.mask ≠ q.pattern &&& r.mask) : rows.Pairwise Row.Disjoint :=
  h.imp Row.disjoint_of_pattern_ne

theorem commandRows_disjoint : commandRows.Pairwise Row.Disjoint := pairwise_disjoint_of_pattern_ne (by decide)

theorem tagRows_disjoint : tagRows.Pairwise Row.Disjoint := pairwise_disjoint_of_pattern_ne (by decide)

/-- Settles O5: any two patterns of a map differ in a bit that both rows fix. -/
theorem opcodeRowsAreDisjoint : Obligations.OpcodeRowsAreDisjoint := ⟨commandRows_disjoint, tagRows_disjoint⟩

/-- In a table of disjoint rows the row that accepts a word is the one looked up. -/
theorem lookupRow_of_mem {n : Nat} {rows : List (Row n)} (hd : rows.Pairwise Row.Disjoint) {r : Row n}
    (hr : r ∈ rows) {w : BitVec n} (hw : w &&& r.mask = r.pattern) : lookupRow rows w = some (r.build w) := by
  induction hd with
  | nil => cases hr
  | @cons q rows hq _ ih =>
    rw [lookupRow_cons]
    rcases List.mem_cons.1 hr with rfl | hr
    · rw [if_pos hw]
    · rw [if_neg fun h => hq r hr w ⟨(q.accepts_iff w).2 h, (r.accepts_iff w).2 hw⟩, ih hr]

/-- A word that a row of the opcode map accepts decodes to that row's instruction. -/
theorem decodeCommand_of_mem {r : Row 16} (hr : r ∈ commandRows) {w : CmdWord} (hw : w &&& r.mask = r.pattern) :
    decodeCommand w = .ok (r.build w) := by
  rw [decodeCommand, lookupRow_of_mem commandRows_disjoint hr hw]

/-! ### The byte in a word -/

/-- A word is its upper byte and its lower byte. -/
theorem word_eq_append (w : CmdWord) : w.extractLsb' 8 8 ++ byteOperandOf w = w :=
  (BitVec.extractLsb'_append_extractLsb'_eq_extractLsb' rfl).trans BitVec.extractLsb'_eq_self

/-- The word of WRITE_BYTE has 0xA0 above the byte (R82, R83). -/
theorem word_writeByte (b : Byte) : (0xA000 ||| b.setWidth 16 : CmdWord) = (0xA0 : Byte) ++ b := by
  rw [BitVec.append_def]
  rfl

/-- The mask of WRITE_BYTE keeps the upper byte of a word. -/
theorem append_and_writeByte_mask (hi lo : Byte) : (hi ++ lo : CmdWord) &&& 0xFF00 = hi ++ (0x00 : Byte) := by
  have h : (hi ++ lo) &&& (0xFF : Byte) ++ (0x00 : Byte) = (hi &&& 0xFF) ++ (lo &&& 0x00) := BitVec.and_append
  rwa [show hi &&& 0xFF = hi from BitVec.and_allOnes, show lo &&& 0x00 = 0x00 from BitVec.and_zero] at h

/-- The row of WRITE_BYTE accepts the words with the upper byte 0xA0. -/
theorem and_writeByte_mask_iff (w : CmdWord) : w &&& 0xFF00 = 0xA000 ↔ w.extractLsb' 8 8 = 0xA0 := by
  have h := append_and_writeByte_mask (w.extractLsb' 8 8) (byteOperandOf w)
  rw [word_eq_append] at h
  rw [h]
  exact BitVec.append_left_inj (s₂ := (0xA0 : Byte)) (0x00 : Byte)

@[simp] theorem byteOperandOf_append (hi lo : Byte) : byteOperandOf (hi ++ lo) = lo :=
  BitVec.extractLsb'_append_eq_right

theorem decodeCommand_writeByte (b : Byte) : decodeCommand (0xA000 ||| b.setWidth 16) = .ok (.writeByte b) := by
  have hr : (⟨"WRITE_BYTE", 0xA000, 0xFF00, fun w => .writeByte (byteOperandOf w)⟩ : Row 16) ∈ commandRows := by
    simp [commandRows]
  rw [word_writeByte, decodeCommand_of_mem hr (append_and_writeByte_mask 0xA0 b)]
  simp only [byteOperandOf_append]

/-! ### The decoder and the encoder -/

/-- Settles O1: the words of WRITE_BYTE by the row that accepts them, the others one by one. -/
theorem everyInstructionDecodesFromItsWord : Obligations.EveryInstructionDecodesFromItsWord := by
  intro i
  cases i with
  | writeByte b => exact decodeCommand_writeByte b
  | writeBit v => cases v <;> rfl
  | _ => rfl

/-- Settles O6: each is the word of its instruction. -/
theorem writtenOutWordsDecode : Obligations.WrittenOutWordsDecode :=
  have h := everyInstructionDecodesFromItsWord
  ⟨h .init, h .start, h .armRd, h (.writeBit true), h (.writeByte 0xB2), h .hRdSample⟩

/-- A row of the opcode map fixes its whole word, or it is one of the two with an operand (R82). -/
theorem commandRow_cases {r : Row 16} (hr : r ∈ commandRows) :
    (r.mask = 0xFFFF ∧ ∀ w, encode (r.build w) = .cmd r.pattern) ∨
      (r.mask = 0xFFFE ∧ r.pattern = 0x8000 ∧ ∀ w, r.build w = .writeBit (bitOperandOf w)) ∨
      (r.mask = 0xFF00 ∧ r.pattern = 0xA000 ∧ ∀ w, r.build w = .writeByte (byteOperandOf w)) := by
  revert r
  simp [commandRows, encode]

theorem encode_of_decodeCommand {w : CmdWord} {i : Instr} (h : decodeCommand w = .ok i) : encode i = .cmd w := by
  obtain ⟨r, hr, hw, rfl⟩ := row_of_decodeCommand h
  rcases commandRow_cases hr with ⟨hm, he⟩ | ⟨hm, hp, hb⟩ | ⟨hm, hp, hb⟩ <;> rw [hm] at hw
  · rw [he, ← hw]
    exact congrArg Encoded.cmd BitVec.and_allOnes
  · rw [hb]
    rcases word_of_writeBit_mask (hw.trans hp) with rfl | rfl <;> rfl
  · rw [hb, encode, word_writeByte, ← (and_writeByte_mask_iff w).1 (hw.trans hp), word_eq_append]

theorem encode_of_decodeTag {t : Byte} {i : Instr} (h : decodeTag t = .ok i) : encode i = .tag t := by
  rcases decodeTag_ok_cases h with ⟨rfl, rfl⟩ | ⟨rfl, rfl⟩ | ⟨rfl, rfl⟩ | ⟨rfl, rfl⟩ | ⟨rfl, rfl⟩ | ⟨rfl, rfl⟩ |
    ⟨rfl, rfl⟩ | ⟨rfl, rfl⟩ <;> rfl

/-- Settles O2, for words by the row that accepts them and for tags one by one. -/
theorem everyAcceptedWordEncodesItsInstruction : Obligations.EveryAcceptedWordEncodesItsInstruction
  | .cmd _, _, h => encode_of_decodeCommand h
  | .tag _, _, h => encode_of_decodeTag h

/-! ### Reserved words -/

/-- The word of any instruction is well formed, its tag legal: the per-instruction laws, assembled (R85, R86). -/
theorem wordLegal (i : Instr) : Laws.WordLegal.Statement i := by
  cases i with
  | writeBit v => exact Laws.WordLegal.writeBit v
  | writeByte b => exact Laws.WordLegal.writeByte b
  | _ => exact ⟨rfl, rfl, rfl⟩

/-- A word is its three fields (R81). -/
theorem word_eq_fields (w : CmdWord) :
    (CmdFields.ofWord w).op ++ (CmdFields.ofWord w).z ++ (CmdFields.ofWord w).imm = w := by
  have hhi : (CmdFields.ofWord w).op ++ (CmdFields.ofWord w).z = w.extractLsb' 8 8 :=
    BitVec.extractLsb'_append_extractLsb'_eq_extractLsb' rfl
  rw [hhi]
  exact word_eq_append w

/-- A command is well formed when none of the five cases of R85 holds of its fields. -/
theorem CmdFields.wellFormed_iff (c : CmdFields) :
    c.wellFormed = true ↔
      (c.op ≠ 0x7 ∧ c.op ≠ 0xC ∧ c.op ≠ 0xD ∧ c.op ≠ 0xE ∧ c.op ≠ 0xF) ∧ c.z = 0 ∧
      ((c.op = 0x0 ∨ c.op = 0x1 ∨ c.op = 0x2 ∨ c.op = 0x4 ∨ c.op = 0x5 ∨ c.op = 0x6 ∨ c.op = 0x9 ∨ c.op = 0xB) →
        c.imm = 0) ∧
      (c.op = 0x3 → c.imm.toNat < 0x03) ∧ (c.op = 0x8 → c.imm.toNat < 0x02) := by
  simp [CmdFields.wellFormed, CmdFields.opDefined, CmdFields.zZero, CmdFields.immAbsent, CmdFields.kindDefined,
    CmdFields.bitOperand, and_assoc, imp_iff_not_or]

/-- The opcodes that are not reserved: those without an operand, arming, WRITE_BIT, WRITE_BYTE (R83). -/
theorem opcode_cases {op : BitVec 4} (h : op ≠ 0x7 ∧ op ≠ 0xC ∧ op ≠ 0xD ∧ op ≠ 0xE ∧ op ≠ 0xF) :
    (op = 0x0 ∨ op = 0x1 ∨ op = 0x2 ∨ op = 0x4 ∨ op = 0x5 ∨ op = 0x6 ∨ op = 0x9 ∨ op = 0xB) ∨
      op = 0x3 ∨ op = 0x8 ∨ op = 0xA := by
  revert op
  decide

/-- Well-formed fields are the fields of an instruction's word. -/
theorem exists_encode_of_wellFormed {c : CmdFields} (h : c.wellFormed = true) :
    ∃ i, encode i = .cmd (c.op ++ c.z ++ c.imm) := by
  obtain ⟨op, z, imm⟩ := c
  obtain ⟨hop, rfl, himm, hkind, hbit⟩ := (CmdFields.wellFormed_iff _).1 h
  dsimp only at himm hkind hbit ⊢
  rcases opcode_cases hop with hnone | rfl | rfl | rfl
  · obtain rfl : imm = 0 := himm hnone
    rcases hnone with rfl | rfl | rfl | rfl | rfl | rfl | rfl | rfl
    exacts [⟨.nop, rfl⟩, ⟨.init, rfl⟩, ⟨.start, rfl⟩, ⟨.rdState, rfl⟩, ⟨.rdSample, rfl⟩, ⟨.waitIdle, rfl⟩,
      ⟨.readBit, rfl⟩, ⟨.readByte, rfl⟩]
  · have hlt : imm.toNat < 0x03 := hkind rfl
    have h3 : imm = 0 ∨ imm = 1 ∨ imm = 2 := by bv_omega
    rcases h3 with rfl | rfl | rfl
    exacts [⟨.armW0, rfl⟩, ⟨.armW1, rfl⟩, ⟨.armRd, rfl⟩]
  · have hlt : imm.toNat < 0x02 := hbit rfl
    have h2 : imm = 0 ∨ imm = 1 := by bv_omega
    rcases h2 with rfl | rfl
    exacts [⟨.writeBit false, rfl⟩, ⟨.writeBit true, rfl⟩]
  · exact ⟨.writeByte imm, congrArg Encoded.cmd (word_writeByte imm)⟩

/-- The decoder accepts exactly the well-formed words: the opcode map of R83 and the list of
reserved words of R85 agree. -/
theorem decodeCommand_ok_iff_wellFormed (w : CmdWord) :
    (∃ i, decodeCommand w = .ok i) ↔ (CmdFields.ofWord w).wellFormed = true := by
  constructor
  · rintro ⟨i, hd⟩
    have h := (wordLegal i).2
    rw [encode_of_decodeCommand hd] at h
    exact h.2
  · intro h
    obtain ⟨i, hi⟩ := exists_encode_of_wellFormed h
    have hd := everyInstructionDecodesFromItsWord i
    rw [hi, word_eq_fields] at hd
    exact ⟨i, hd⟩

/-- The words the decoder refuses are those that are not well formed. -/
theorem decodeCommand_error_iff (w : CmdWord) :
    (∃ e, decodeCommand w = .error e) ↔ ¬(CmdFields.ofWord w).wellFormed = true := by
  rw [← decodeCommand_ok_iff_wellFormed]
  cases decodeCommand w <;> simp

/-- Settles O3: the words refused are those that are not well formed, and one case of R85 says why. -/
theorem reservedWordsAreThoseListed : Obligations.ReservedWordsAreThoseListed := by
  intro w
  rw [decodeCommand_error_iff, CmdFields.wellFormed_iff]
  simp only [CmdFields.ofWord, not_and_or, Classical.not_imp, not_lt, ne_eq, not_not]

end Sys2Proof

namespace Sys2Proof.Machine

/-- Settles O9, by what a step does in which the host issues a word. -/
theorem stepRunsTheIssuedCommand : Obligations.StepRunsTheIssuedCommand := by
  intro s w rest i hs hd
  rw [step_of_issues hs, hd]
  rfl

end Sys2Proof.Machine
end

section
/-! The obligations of 40_pin_driver: the level of the wire (R113) and the open-drain master (R116). -/

namespace Sys2Proof.Machine

/-- A master that drives high wins the wire where no device pulls low (R113). -/
theorem State.line_of_drives_high {s : State} (hi : s.inited = true) (hf : s.fault = 0) (hd : s.dir = true)
    (ho : s.out = true) (hdev : s.devAt s.k = false) : s.line = true := by
  simp [State.line, hi, hf, hd, ho, hdev]

/-- Settles O38, by the level of the wire while the master drives low, releases and drives high. -/
theorem lineIsWiredAnd : Obligations.LineIsWiredAnd := by
  intro s hi hf
  refine ⟨State.line_of_drives_low hi hf, fun hd hdev => ?_, fun hd hdev => ?_, State.line_of_drives_high hi hf⟩
  · rw [State.line_of_released hi hf hd, hdev, Bool.not_true]
  · rw [State.line_of_released hi hf hd, hdev, Bool.not_false]

/-- With `OUT` at 0 the wire is the wired AND of the two sides: high exactly when neither pulls low (R31, R113). -/
theorem State.line_of_out_low {s : State} (hi : s.inited = true) (hf : s.fault = 0) (ho : s.out = false) :
    s.line = (!s.dir && !s.devAt s.k) := by
  cases hd : s.dir with
  | false => rw [State.line_of_released hi hf hd, Bool.not_false, Bool.true_and]
  | true => rw [State.line_of_drives_low hi hf hd ho, Bool.not_true, Bool.false_and]

/-- Settles O39: a step keeps the invariant, which after INIT holds `OUT` at 0. -/
theorem masterNeverDrivesHigh : Obligations.MasterNeverDrivesHigh := by
  intro s t hs h hi hf
  have ho : t.out = false := ((stepKeepsInv s t hs h).live hi hf).outLow
  exact ⟨fun ⟨_, hhigh⟩ => absurd (hhigh.symm.trans ho) nofun, State.line_of_out_low hi hf ho⟩

end Sys2Proof.Machine
end

section
/-! The obligations of 41_timer: TICK at a passing boundary (R130, R131, R136) and the delay law (R139). -/

namespace Sys2Proof.Machine

/-! ### The passing of a boundary -/

/-- A boundary at which TICK is enabled, in the periodic mode (R130, R131). -/
theorem State.passBoundary_of_tickEnabled {s : State} (ht : s.tickEnabled = true) (hp : s.tPeriodic = true) :
    s.passBoundary = .next
      (if (s.cnt + 1) % 2 ^ s.cfg.w = s.cmp then { s with k := s.k + 1, cnt := 0, ip := true }
       else { s with k := s.k + 1, cnt := (s.cnt + 1) % 2 ^ s.cfg.w }) := by
  rcases s.passBoundary_cases with ⟨h, -⟩ | ⟨-, h, -⟩ | ⟨-, -, hm, e⟩ | ⟨-, -, hm, e⟩
  · exact absurd (ht.symm.trans h) nofun
  · exact absurd (hp.symm.trans h) nofun
  · rw [e, if_pos hm]
  · rw [e, if_neg hm]

/-- A boundary at which TICK is not enabled (R136). -/
theorem State.passBoundary_of_not_tickEnabled {s : State} (ht : s.tickEnabled = false) :
    s.passBoundary = .next { s with k := s.k + 1 } := by
  rcases s.passBoundary_cases with ⟨-, e⟩ | ⟨h, -⟩ | ⟨h, -⟩ | ⟨h, -⟩
  · exact e
  all_goals exact absurd (ht.symm.trans h) nofun

/-- The three ways in which TICK is not enabled (R136). -/
theorem State.tickEnabled_eq_false_iff (s : State) :
    s.tickEnabled = false ↔ s.tRun = false ∨ s.inited = false ∨ s.fault ≠ 0 := by
  rw [← Bool.not_eq_true, State.tickEnabled_iff, not_and_or, not_and_or, Bool.not_eq_true, Bool.not_eq_true]
  tauto

/-- Settles O11: the host lets the boundary go by, and the boundary takes its TICK. -/
theorem tickCountsAndMatches : Obligations.TickCountsAndMatches := by
  intro s rest hs hpass hi hf hr hp
  have ht : s.tickEnabled = true := (State.tickEnabled_iff s).2 ⟨hi, hf, hr⟩
  rw [step_of_passes hs hpass]
  exact State.passBoundary_of_tickEnabled (s := { s with port := rest }) ht hp

/-- Settles O12: the host lets the boundary go by, and TICK is not enabled at it. -/
theorem stoppedTimerTakesNoStep : Obligations.StoppedTimerTakesNoStep := by
  intro s rest hs hpass h
  have ht : s.tickEnabled = false := (State.tickEnabled_eq_false_iff s).2 h
  rw [step_of_passes hs hpass]
  exact State.passBoundary_of_not_tickEnabled (s := { s with port := rest }) ht

/-! ### The delay law -/

/-- A tick from a count below the largest one does not wrap around (R130, R137). -/
theorem State.tick_of_cnt {s : State} {j : Nat} (hj : j + 1 < 2 ^ s.cfg.w) :
    ({ s with cnt := j } : State).tick =
      if j + 1 = s.cmp then { s with cnt := 0, ip := true } else { s with cnt := j + 1 } := by
  have hmod : (j + 1) % 2 ^ s.cfg.w = j + 1 := Nat.mod_eq_of_lt hj
  by_cases hm : j + 1 = s.cmp
  · rw [if_pos hm]
    exact State.tick_of_match (s := { s with cnt := j }) (hmod.trans hm)
  · rw [if_neg hm, State.tick_of_no_match (s := { s with cnt := j }) (hmod.trans_ne hm)]
    simp only [hmod]

/-- The ticks before the match: the counter counts and nothing else happens (R139). -/
theorem State.tick_iterate_of_lt {s : State} (hc : s.cnt = 0) (hw : s.cmp < 2 ^ s.cfg.w) {j : Nat} (hj : j < s.cmp) :
    State.tick^[j] s = { s with cnt := j } := by
  induction j with
  | zero => rw [Function.iterate_zero_apply, ← hc]
  | succ j ih =>
    have hprev : State.tick^[j] s = { s with cnt := j } := ih (by omega)
    rw [Function.iterate_succ_apply', hprev, State.tick_of_cnt (by omega), if_neg (by omega)]

/-- The `n`-th tick of a delay of `n` records the event and clears the counter (R139). -/
theorem State.tick_iterate_of_eq {s : State} {n : Nat} (hc : s.cnt = 0) (hw : s.cmp < 2 ^ s.cfg.w) (hn : s.cmp = n)
    (h1 : 1 ≤ n) : State.tick^[n] s = { s with cnt := 0, ip := true } := by
  obtain ⟨m, rfl⟩ := Nat.exists_eq_add_of_le' h1
  rw [Function.iterate_succ_apply', State.tick_iterate_of_lt hc hw (by omega), State.tick_of_cnt (by omega),
    if_pos hn.symm]

/-- Settles O14: the ticks before the match, by induction on their number, and the tick of the match. -/
theorem delayLaw : Obligations.DelayLaw := by
  rintro s n hc rfl h1 hn
  have hw : s.cmp < 2 ^ s.cfg.w := DelayFits.lt_two_pow ⟨h1, hn⟩
  exact ⟨fun j hj => State.tick_iterate_of_lt hc hw hj, State.tick_iterate_of_eq hc hw rfl h1⟩

end Sys2Proof.Machine
end

section
/-! The obligations of 42_sequencer: the micro-steps (R151 to R158), their dispatch by SERVICE (R150, R159), what they
leave unchanged (R161) and the transition table (R163). -/

namespace Sys2Proof.Machine

/-! ### The micro-steps -/

theorem exec_hIdle (s : State) : exec .hIdle s = .next s := rfl

theorem exec_hW0Low (s : State) : exec .hW0Low s = .next { s with dir := false, cmp := s.cfg.d, state := 0x02 } := rfl

theorem exec_hW0Rel (s : State) : exec .hW0Rel s = .next { s with state := 0x00 } := rfl

theorem exec_hW1Low (s : State) : exec .hW1Low s = .next { s with dir := false, cmp := s.cfg.b, state := 0x04 } := rfl

theorem exec_hW1Rel (s : State) : exec .hW1Rel s = .next { s with state := 0x00 } := rfl

theorem exec_hRdLow (s : State) : exec .hRdLow s = .next { s with dir := false, cmp := s.cfg.e, state := 0x06 } := rfl

theorem exec_hRdSample (s : State) :
    exec .hRdSample s = .next { s with sampled := s.line, cmp := s.cfg.f, state := 0x07 } := rfl

theorem exec_hRdRel (s : State) : exec .hRdRel s = .next { s with state := 0x00 } := rfl

/-- Settles O41, by what each of the eight micro-steps writes. -/
theorem microStepsWriteOnlyTheirRegisters : Obligations.MicroStepsWriteOnlyTheirRegisters := by
  intro i s t hc h
  cases i with
  | hIdle =>
    cases h
    exact ⟨rfl, fun _ => rfl, fun _ _ _ => ⟨rfl, fun _ => rfl⟩, fun _ => rfl⟩
  | hW0Low =>
    cases h
    exact ⟨rfl, fun _ => rfl, fun hw0 _ _ => absurd rfl hw0, nofun⟩
  | hW1Low =>
    cases h
    exact ⟨rfl, fun _ => rfl, fun _ hw1 _ => absurd rfl hw1, nofun⟩
  | hRdLow =>
    cases h
    exact ⟨rfl, fun _ => rfl, fun _ _ hrd => absurd rfl hrd, nofun⟩
  | hRdSample =>
    cases h
    exact ⟨rfl, absurd rfl, fun _ _ _ => ⟨rfl, absurd rfl⟩, nofun⟩
  | hW0Rel | hW1Rel | hRdRel =>
    cases h
    exact ⟨rfl, fun _ => rfl, fun _ _ _ => ⟨rfl, fun _ => rfl⟩, nofun⟩
  | _ => cases hc

/-! ### SERVICE -/

/-- A serviced event with a legal tag executes the micro-step of that tag, with `IP` cleared (R150). -/
theorem step_of_servicedTag {s : State} {b : Byte} {i : Instr} (hs : s.serviceEnabled = true) (ht : s.state = b)
    (hd : decodeTag b = .ok i) : step s = exec i { s with ip := false } := by
  subst ht
  rw [step_of_service hs, hd]
  rfl

/-- A serviced event with an illegal tag records F_BAD_STATE (R159, R246). -/
theorem step_of_servicedIllegalTag {s : State} (hs : s.serviceEnabled = true) (ht : 8 ≤ s.state.toNat) :
    step s = .next { s with ip := false, fault := 5, diag := some (s.state.setWidth 16) } := by
  obtain ⟨e, hd⟩ := (decodeTag_error_iff s.state).2 ht
  have hf : s.takeInterrupt.fault = 0 := ((State.serviceEnabled_iff s).1 hs).2.1
  rw [step_of_service hs, hd]
  exact congrArg _ (State.raise_of_noFault hf .badState _)

/-- Settles O10, by what a step does while SERVICE is enabled. -/
theorem stepRunsTheServicedMicroStep : Obligations.StepRunsTheServicedMicroStep := by
  intro s i hi hf hip hie hd
  exact step_of_servicedTag ((State.serviceEnabled_iff s).2 ⟨hi, hf, hip, hie⟩) rfl hd

/-- Settles O31, by the micro-step of tag 0x00. -/
theorem idleEventDoesNothing : Obligations.IdleEventDoesNothing :=
  ⟨exec_hIdle, fun _ hs ht => (step_of_servicedTag hs ht rfl).trans (exec_hIdle _)⟩

/-- Settles O32, by the micro-steps of tags 0x01 and 0x02. -/
theorem writeZeroMicroSteps : Obligations.WriteZeroMicroSteps :=
  ⟨exec_hW0Low, exec_hW0Rel, fun _ hs ht => (step_of_servicedTag hs ht rfl).trans (exec_hW0Low _),
    fun _ hs ht => (step_of_servicedTag hs ht rfl).trans (exec_hW0Rel _)⟩

/-- Settles O33, by the micro-steps of tags 0x03 and 0x04. -/
theorem writeOneMicroSteps : Obligations.WriteOneMicroSteps :=
  ⟨exec_hW1Low, exec_hW1Rel, fun _ hs ht => (step_of_servicedTag hs ht rfl).trans (exec_hW1Low _),
    fun _ hs ht => (step_of_servicedTag hs ht rfl).trans (exec_hW1Rel _)⟩

/-- Settles O34, by the micro-steps of tags 0x05 and 0x07. -/
theorem readMicroSteps : Obligations.ReadMicroSteps :=
  ⟨exec_hRdLow, exec_hRdRel, fun _ hs ht => (step_of_servicedTag hs ht rfl).trans (exec_hRdLow _),
    fun _ hs ht => (step_of_servicedTag hs ht rfl).trans (exec_hRdRel _)⟩

/-- Settles O36: a tag the decoder refuses is one of 0x08 to 0xFF, and SERVICE answers it with the fault. -/
theorem illegalTagIsBadState : Obligations.IllegalTagIsBadState :=
  ⟨decodeTag_error_iff, fun _ hs ht => step_of_servicedIllegalTag hs ht⟩

/-! ### The sample -/

/-- The serviced event of tag 0x06 stores the level of the wire, which does not depend on `IP` (R157). -/
theorem step_of_servicedSample {s : State} (hs : s.serviceEnabled = true) (ht : s.state = 0x06) :
    step s = .next { s with ip := false, sampled := s.line, cmp := s.cfg.f, state := 0x07 } :=
  (step_of_servicedTag hs ht rfl).trans (exec_hRdSample _)

/-- A serviced event changes `SAMPLED` only where it samples the wire (R157). -/
theorem MicroEffect.sampled_cases {s t : State} (h : MicroEffect s t) :
    t.sampled = s.sampled ∨ (s.state = 0x06 ∧ t.sampled = s.line) := by
  cases h with
  | sample h => exact .inr ⟨h, rfl⟩
  | _ => exact .inl rfl

/-- The host does not touch `SAMPLED` inside a composite command. -/
theorem HostEffect.sampled_eq {s t : State} (h : HostEffect s t) : t.sampled = s.sampled := by
  cases h <;> rfl

/-- Of all steps only the serviced event that samples the wire changes `SAMPLED` (R24, R157). -/
theorem sampled_cases_of_next {s t : State} (h : step s = .next t) :
    t.sampled = s.sampled ∨ (s.serviceEnabled = true ∧ s.state = 0x06 ∧ t.sampled = s.line) := by
  cases stepEffect_of_next h with
  | service hs h => exact h.sampled_cases.imp_right fun hsample => ⟨hs, hsample⟩
  | host _ _ _ h => exact .inl h.sampled_eq
  | command _ _ h => exact .inl h.sampled_port_eq.1
  | _ => exact .inl rfl

/-- Settles O35, by the event of tag 0x06, the level of a released wire and the agents that can move in a step. -/
theorem sampleMicroStepAloneWritesSampled : Obligations.SampleMicroStepAloneWritesSampled := by
  refine ⟨exec_hRdSample, fun _ hs ht => step_of_servicedSample hs ht, fun s hs ht hd => ?_,
    fun s t h hne => (sampled_cases_of_next h).resolve_left hne⟩
  obtain ⟨hi, hf, -⟩ := (State.serviceEnabled_iff s).1 hs
  rw [step_of_servicedSample hs ht, State.line_of_released hi hf hd]

/-! ### The transition table -/

/-- The tag a serviced event leaves, as the state column of the transition table has it (R163). -/
def nextTag (b : Byte) : Byte :=
  if b = 0x01 then 0x02 else if b = 0x03 then 0x04 else if b = 0x05 then 0x06 else if b = 0x06 then 0x07 else 0x00

theorem nextTag_toNat_lt (b : Byte) : (nextTag b).toNat < 8 := by
  unfold nextTag
  split_ifs <;> decide

/-- Three moves along the table reach Idle: from READ_LOW by the third, from every other tag by an earlier one. -/
theorem nextTag_reaches_idle (b : Byte) :
    nextTag b = 0x00 ∨ nextTag (nextTag b) = 0x00 ∨ nextTag (nextTag (nextTag b)) = 0x00 := by
  by_cases hread : b = 0x05
  · subst hread
    exact .inr (.inr rfl)
  by_cases hlow : b = 0x01 ∨ b = 0x03 ∨ b = 0x06
  · rcases hlow with rfl | rfl | rfl <;> exact .inr (.inl rfl)
  · push Not at hlow
    obtain ⟨hw0, hw1, hsample⟩ := hlow
    exact .inl (by rw [nextTag, if_neg hw0, if_neg hw1, if_neg hread, if_neg hsample])

theorem MicroEffect.state_eq {s t : State} (h : MicroEffect s t) : t.state = nextTag s.state := by
  cases h with
  | idle h | writeZeroLow h | writeOneLow h | readLow h | sample h => simp [nextTag, h]
  | release h => rcases h with h | h | h <;> simp [nextTag, h]

/-- A serviced event with a legal tag moves it along the table. -/
theorem state_eq_of_serves {s t : State} (h : s.Serves t) (hlegal : s.state.toNat < 8) : t.state = nextTag s.state := by
  obtain ⟨hs, h⟩ := h
  cases stepEffect_of_next h with
  | service _ h => exact h.state_eq
  | badTag _ hbad => omega
  | host hn _ _ _ | boundaryOnly hn _ _ | matched hn _ _ _ | counted hn _ _ _ =>
    exact absurd (hs.symm.trans hn) nofun
  | command hi _ _ | illegal hi _ | illegalRefused hi _ => exact absurd (hs.symm.trans hi.1) nofun

/-- Settles O37: each event moves the tag along the table, which keeps it legal and reaches Idle in three moves. -/
theorem eventsFollowTheTransitionTable : Obligations.EventsFollowTheTransitionTable := by
  refine ⟨fun s t h hlegal => state_eq_of_serves h hlegal, fun s0 t0 s1 t1 s2 t2 hlegal h0 e1 h1 e2 h2 => ?_⟩
  have ht0 : t0.state = nextTag s0.state := state_eq_of_serves h0 hlegal
  have hs1 : s1.state = nextTag s0.state := e1.trans ht0
  have ht1 : t1.state = nextTag (nextTag s0.state) := hs1 ▸ state_eq_of_serves h1 (hs1 ▸ nextTag_toNat_lt _)
  have hs2 : s2.state = nextTag (nextTag s0.state) := e2.trans ht1
  have ht2 : t2.state = nextTag (nextTag (nextTag s0.state)) :=
    hs2 ▸ state_eq_of_serves h2 (hs2 ▸ nextTag_toNat_lt _)
  rw [ht0, ht1, ht2]
  exact nextTag_reaches_idle s0.state

end Sys2Proof.Machine
end

section
/-! The obligations of 43_bit_operations: arming a slot (R180 to R183), the two reads (R184, R185), WAIT_IDLE and the
composites that wait (R186 to R188), the slots in time (R190), a wait in which no event is serviced (R191). -/

namespace Sys2Proof.Machine

/-! ### Arming a slot -/

/-- With a slot armed an operation is in flight (R84). -/
theorem Slot.tag_ne_idle (sl : Slot) : sl.tag ≠ 0x00 := by
  cases sl <;> decide

/-- An arming command, behind the decoder's checks (R91, R180). -/
theorem exec_of_armsOf (s : State) {i : Instr} {sl : Slot} {a : HostAct} (ha : armsOf i = some (sl, a)) :
    exec i s = .next (s.command (wordOf i) fun s => s.arm sl a) := by
  cases i with
  | armW0 | armW1 | armRd | writeBit | readBit =>
    cases ha
    rfl
  | _ => cases ha

section
variable {s : State} {i : Instr} {sl : Slot} {a : HostAct}

/-- From Idle an arming command starts its slot (R180). -/
theorem exec_arming_of_idle (ha : armsOf i = some (sl, a)) (hf : s.NoFault) (hi : s.inited = true)
    (h : s.state = 0x00) :
    exec i s = .next { s with cnt := 0, cmp := sl.delay s.cfg, state := sl.tag, dir := true, act := a } := by
  rw [exec_of_armsOf s ha, State.command_of_inited hf hi, State.arm_of_idle h]

/-- With an operation in flight an arming command is F_REENTRY (R180, R244). -/
theorem exec_arming_of_busy (ha : armsOf i = some (sl, a)) (hf : s.NoFault) (hi : s.inited = true)
    (h : s.state ≠ 0x00) :
    exec i s = .next { s with fault := 3, diag := some (s.state.setWidth 16), act := .idle } := by
  rw [exec_of_armsOf s ha, State.command_of_inited hf hi, State.arm_of_busy hf h]

/-- Before INIT an arming command is F_USE_BEFORE_INIT (R243). -/
theorem exec_arming_of_not_inited (ha : armsOf i = some (sl, a)) (hf : s.NoFault) (hi : s.inited = false) :
    exec i s = .next { s with fault := 2, diag := some (wordOf i) } := by
  rw [exec_of_armsOf s ha, State.command_of_not_inited hf hi]

end

/-- Settles O19, by what an arming command does in Idle, with an operation in flight and before INIT. -/
theorem armWriteZeroStartsSlot : Obligations.ArmWriteZeroStartsSlot :=
  ⟨rfl, fun _ => exec_arming_of_idle (sl := .writeZero) rfl, fun _ => exec_arming_of_busy rfl,
    fun _ => exec_arming_of_not_inited rfl⟩

/-- Settles O20, by what an arming command does in Idle, with an operation in flight and before INIT. -/
theorem armWriteOneStartsSlot : Obligations.ArmWriteOneStartsSlot :=
  ⟨rfl, fun _ => exec_arming_of_idle (sl := .writeOne) rfl, fun _ => exec_arming_of_busy rfl,
    fun _ => exec_arming_of_not_inited rfl⟩

/-- Settles O21, by what an arming command does in Idle, with an operation in flight and before INIT. -/
theorem armReadStartsSlot : Obligations.ArmReadStartsSlot :=
  ⟨rfl, fun _ => exec_arming_of_idle (sl := .read) rfl, fun _ => exec_arming_of_busy rfl,
    fun _ => exec_arming_of_not_inited rfl⟩

/-! ### The two reads -/

/-- Settles O22: past the decoder's checks nothing but the response is written. -/
theorem rdStateReturnsTag : Obligations.RdStateReturnsTag :=
  ⟨rfl, fun _ hf hi => congrArg _ (State.command_of_inited hf hi _ _),
    fun _ hf hi => congrArg _ (State.command_of_not_inited hf hi _ _)⟩

/-- Settles O23: past the decoder's checks nothing but the response is written. -/
theorem rdSampleReturnsSampledBit : Obligations.RdSampleReturnsSampledBit :=
  ⟨rfl, fun _ hf hi => congrArg _ (State.command_of_inited hf hi _ _),
    fun _ hf hi => congrArg _ (State.command_of_not_inited hf hi _ _)⟩

/-! ### Waiting for Idle -/

/-- A poll that does not find Idle: an operation is in flight, or the poll is refused (R186, R248). -/
theorem State.pollFindsIdle_eq_false {s : State} (h : s.state ≠ 0x00 ∨ s.fault ≠ 0) : s.pollFindsIdle = false := by
  rw [Bool.eq_false_iff, Ne, State.pollFindsIdle_iff]
  rintro ⟨-, hf, h0⟩
  exact h.elim (absurd h0) (absurd hf)

/-- While its poll does not find Idle a host that waits lets the boundary go by (R186). -/
theorem State.hostPasses_of_waits {s : State} (ha : s.act.waits = true) (h : s.state ≠ 0x00 ∨ s.fault ≠ 0) :
    s.HostPasses s.port := by
  have hp : s.pollFindsIdle = false := State.pollFindsIdle_eq_false h
  unfold State.HostPasses State.hostContinue
  cases hact : s.act with
  | idle | writeByteArm | readByteArm => exact absurd ha (by rw [hact]; nofun)
  | waitIdle | writeBit | readBit | writeByteWait | readByteWait => simp [hp]

/-- A held host completes WAIT_IDLE or WRITE_BIT when its poll finds Idle (R186, R187). -/
theorem step_of_waitOver {s : State} (ha : s.act = .waitIdle ∨ s.act = .writeBit) (hs : s.serviceEnabled = false)
    (hf : s.NoFault) (hi : s.inited = true) (h : s.state = 0x00) : step s = .next { s with act := .idle } := by
  have hp : s.pollFindsIdle = true := (State.pollFindsIdle_iff s).2 ⟨hi, hf, h⟩
  refine step_of_hostContinue hs ?_
  rcases ha with ha | ha <;> rw [State.hostContinue, ha] <;> exact if_pos hp

/-- A held host completes READ_BIT and returns `SAMPLED` when its poll finds Idle (R188). -/
theorem step_of_readBitOver {s : State} (ha : s.act = .readBit) (hs : s.serviceEnabled = false) (hf : s.NoFault)
    (hi : s.inited = true) (h : s.state = 0x00) :
    step s = .next { s with act := .idle, rsp := some (zext8 s.sampled) } := by
  have hp : s.pollFindsIdle = true := (State.pollFindsIdle_iff s).2 ⟨hi, hf, h⟩
  refine step_of_hostContinue hs ?_
  rw [State.hostContinue, ha]
  exact if_pos hp

/-- WAIT_IDLE past the decoder's checks (R186). -/
theorem exec_waitIdle_of_inited {s : State} (hf : s.NoFault) (hi : s.inited = true) :
    exec .waitIdle s = .next (if s.isIdle then s else { s with act := .waitIdle }) :=
  congrArg _ (State.command_of_inited hf hi _ _)

/-- Settles O24, by the first poll of WAIT_IDLE and the polls of the held host. -/
theorem waitIdleHoldsTheHost : Obligations.WaitIdleHoldsTheHost := by
  refine ⟨rfl, fun s hf hi h => ?_, fun s hf hi h => ?_,
    fun s hf hi => congrArg _ (State.command_of_not_inited hf hi _ _), fun s ha => step_of_waitOver (.inl ha),
    fun s ha => State.hostPasses_of_waits (by rw [ha]; rfl)⟩
  · rw [exec_waitIdle_of_inited hf hi, if_pos ((State.isIdle_iff s).2 h)]
  · rw [exec_waitIdle_of_inited hf hi, if_neg (mt (State.isIdle_iff s).1 h)]

/-- Settles O25, by the arming of the bit's slot and the polls of the held host. -/
theorem writeBitArmsAndWaits : Obligations.WriteBitArmsAndWaits := by
  refine ⟨rfl, rfl, fun s v hf hi h => ?_, fun s v => exec_arming_of_busy rfl, fun s v hf hi => ?_,
    fun s ha => step_of_waitOver (.inr ha), fun s ha => State.hostPasses_of_waits (by rw [ha]; rfl)⟩
  · rw [exec_arming_of_idle (sl := slotOfBit v) rfl hf hi h]
    cases v <;> rfl
  · cases v <;> exact exec_arming_of_not_inited rfl hf hi

/-- Settles O26, by the arming of a read slot and the polls of the held host. -/
theorem readBitArmsWaitsAndReturns : Obligations.ReadBitArmsWaitsAndReturns :=
  ⟨rfl, fun _ => exec_arming_of_idle (sl := .read) rfl, fun _ => exec_arming_of_busy rfl,
    fun _ => exec_arming_of_not_inited rfl, fun _ ha => step_of_readBitOver ha,
    fun _ ha => State.hostPasses_of_waits (by rw [ha]; rfl)⟩

/-! ### The phases of a slot -/

/-- `s` at boundary `k`, where a phase of a slot begins: the tag, the pin and the delay of the phase, the counter
cleared, the host inside of `a` (R162, R180). -/
def State.phase (s : State) (a : HostAct) (k : Nat) (tag : Byte) (drives : Bool) (delay : Nat) : State :=
  { s with k := k, cnt := 0, cmp := delay, state := tag, dir := drives, act := a }

theorem State.SlotReady.with_sampled {s : State} (hr : s.SlotReady) (v : Bool) :
    State.SlotReady { s with sampled := v } :=
  ⟨⟨hr.inited, hr.noFault, hr.runs, hr.periodic, hr.enabled, hr.outLow⟩, hr.noPending, hr.idleTag, hr.hostIdle⟩

theorem State.SlotReady.phase_running {s : State} (hr : s.SlotReady) (a : HostAct) (k : Nat) (tag : Byte)
    (drives : Bool) (delay : Nat) : (s.phase a k tag drives delay).Running :=
  ⟨hr.inited, hr.noFault, hr.runs, hr.periodic, hr.enabled, hr.outLow⟩

/-- The phase after the last one: the slot has ended in Idle, and the host is still inside of `a` (R189). -/
theorem State.SlotReady.phase_idle {s : State} (hr : s.SlotReady) (a : HostAct) (k : Nat) (drives : Bool)
    (delay : Nat) :
    s.phase a k 0x00 drives delay = { s with k := k, cnt := 0, cmp := delay, dir := drives, act := a } := by
  rw [State.phase, ← hr.idleTag]

section
variable {s : State} {a : HostAct} {tag : Byte} {drives : Bool} {n : Nat}

/-- The intervals of a phase: the host stays where it is, and the wire is low while the master drives it and follows the
devices while it does not. -/
theorem State.SlotReady.phase_interval (hr : s.SlotReady) (hq : State.Quiet { s with act := a }) (k : Nat)
    (ht : tag ≠ 0x00) (hn : DelayFits s.cfg.w n) {j : Nat} (hj : j < n) :
    ∃ u, (s.phase a k tag drives n).After j u ∧ u.k = k + j ∧ u.act = a ∧ u.line = (!drives && !s.devAt (k + j)) := by
  refine ⟨_, State.after_ticks (hr.phase_running a k tag drives n) hr.noPending hq ht rfl rfl hn.2 j hj, rfl, rfl, ?_⟩
  exact State.line_of_out_low hr.inited hr.noFault hr.outLow

/-- A phase lasts its delay and ends with the micro-step of its tag (R162). -/
theorem State.SlotReady.phase_ends (hr : s.SlotReady) (hq : State.Quiet { s with act := a }) (k : Nat)
    (ht : tag ≠ 0x00) (hn : DelayFits s.cfg.w n) {i : Instr} {t : State} (hd : decodeTag tag = .ok i)
    (he : exec i (s.phase a (k + n) tag drives n) = .next t) : (s.phase a k tag drives n).After (n + 1) t := by
  have hip : ({ s with ip := false } : State) = s := by rw [← hr.noPending]
  refine State.after_phase (hr.phase_running a k tag drives n) hr.noPending hq ht rfl rfl hn.1 hn.2 hd ?_
  change exec i (State.phase { s with ip := false } a (k + n) tag drives n) = _
  rw [hip, he]

/-- The Low phase of a slot, from its arming. -/
theorem State.SlotReady.low_intervals (hr : s.SlotReady) (hq : State.Quiet { s with act := a }) (sl : Slot) :
    ∀ j, j < sl.delay s.cfg → ∃ u, (s.phase a s.k sl.tag true (sl.delay s.cfg)).After j u ∧
      u.k = s.k + j ∧ u.act = a ∧ u.line = false :=
  fun _ hj => hr.phase_interval hq s.k sl.tag_ne_idle (sl.delay_fits s.cfg) hj

/-- A later phase of a slot, `m` ticks and `c` serviced events after its arming. -/
theorem State.SlotReady.released_intervals (hr : s.SlotReady) (hq : State.Quiet { s with act := a }) (ht : tag ≠ 0x00)
    (hn : DelayFits s.cfg.w n) {s1 : State} {m c : Nat} (h : s1.After (m + c) (s.phase a (s.k + m) tag false n)) :
    ∀ j, m ≤ j → j < m + n → ∃ u, s1.After (j + c) u ∧ u.k = s.k + j ∧ u.act = a ∧ u.line = !s.devAt (s.k + j) := by
  intro j hm hj
  obtain ⟨d, rfl⟩ := Nat.exists_eq_add_of_le hm
  obtain ⟨u, hu, hk, hact, hl⟩ := hr.phase_interval (drives := false) hq (s.k + m) ht hn (j := d) (by omega)
  rw [← Nat.add_assoc]
  exact ⟨u, Nat.add_right_comm m c d ▸ h.trans hu, hk, hact, hl⟩

end

/-! ### The write slots in time -/

/-- The ticks from the release to the end of a write slot: `B` for a one, `D` for a zero (R6). -/
def releaseDelay (c : Config) (v : Bool) : Nat := if v then c.b else c.d

theorem releaseDelay_fits (c : Config) (v : Bool) : DelayFits c.w (releaseDelay c v) := by
  obtain ⟨_, _, hb, _, hd, _⟩ := c.ok
  cases v
  · exact hd
  · exact hb

/-- The tag of the Release phase of a write slot (R84). -/
def releaseTag (v : Bool) : Byte := if v then 0x04 else 0x02

section
variable {s : State} {a : HostAct} (v : Bool)

/-- The Low phase of a write slot ends with the release of the pin (R152, R154). -/
theorem State.SlotReady.write_low_ends (hr : s.SlotReady) (hq : State.Quiet { s with act := a }) :
    (s.phase a s.k (slotOfBit v).tag true ((slotOfBit v).delay s.cfg)).After ((slotOfBit v).delay s.cfg + 1)
      (s.phase a (s.k + (slotOfBit v).delay s.cfg) (releaseTag v) false (releaseDelay s.cfg v)) := by
  have hn := (slotOfBit v).delay_fits s.cfg
  cases v
  · exact hr.phase_ends hq s.k (by decide) hn rfl (exec_hW0Low _)
  · exact hr.phase_ends hq s.k (by decide) hn rfl (exec_hW1Low _)

/-- The Release phase of a write slot ends in Idle (R153, R155). -/
theorem State.SlotReady.write_release_ends (hr : s.SlotReady) (hq : State.Quiet { s with act := a }) (k : Nat) :
    (s.phase a k (releaseTag v) false (releaseDelay s.cfg v)).After (releaseDelay s.cfg v + 1)
      (s.phase a (k + releaseDelay s.cfg v) 0x00 false (releaseDelay s.cfg v)) := by
  have hn := releaseDelay_fits s.cfg v
  cases v
  · exact hr.phase_ends hq k (by decide) hn rfl (exec_hW0Rel _)
  · exact hr.phase_ends hq k (by decide) hn rfl (exec_hW1Rel _)

/-- A write slot of either kind, by its two phases (R190). -/
theorem State.SlotReady.write_slot (hr : s.SlotReady) (hq : State.Quiet { s with act := a }) {i : Instr}
    {low release : Nat} (hlow : (slotOfBit v).delay s.cfg = low) (hrelease : releaseDelay s.cfg v = release)
    (ha : armsOf i = some (slotOfBit v, a)) :
    ∃ s1, exec i s = .next s1 ∧
      (∀ j, j < low → ∃ u, s1.After j u ∧ u.k = s.k + j ∧ u.act = a ∧ u.line = false) ∧
      (∀ j, low ≤ j → j < low + release →
        ∃ u, s1.After (j + 1) u ∧ u.k = s.k + j ∧ u.act = a ∧ u.line = !s.devAt (s.k + j)) ∧
      s1.After (low + release + 2)
        { s with k := s.k + low + release, cnt := 0, cmp := release, dir := false, act := a } ∧
      (i = .writeBit v → s1.After (low + release + 3)
        { s with k := s.k + low + release, cnt := 0, cmp := release, dir := false }) := by
  subst hlow hrelease
  have hreleased := hr.write_low_ends v hq
  have hended := hreleased.trans (hr.write_release_ends v hq _)
  rw [hr.phase_idle, show ∀ m n : Nat, m + 1 + (n + 1) = m + n + 2 by omega] at hended
  refine ⟨_, exec_arming_of_idle ha hr.noFault hr.inited hr.idleTag, hr.low_intervals hq _,
    hr.released_intervals hq (by cases v <;> decide) (releaseDelay_fits s.cfg v) hreleased, hended, ?_⟩
  rintro rfl
  cases ha
  have hdone := hended.step (step_of_waitOver (.inr rfl) (State.serviceEnabled_of_no_pending hr.noPending) hr.noFault
    hr.inited hr.idleTag)
  rwa [← hr.hostIdle] at hdone

end

/-- Settles O54, by the two phases of the slot. -/
theorem writeOneSlotTakesAPlusB : Obligations.WriteOneSlotTakesAPlusB := by
  rintro s i a hr (⟨rfl, rfl⟩ | ⟨rfl, rfl, hport⟩)
  · exact hr.write_slot true (.inl rfl) rfl rfl rfl
  · exact hr.write_slot true (.inr ⟨rfl, hport⟩) rfl rfl rfl

/-- Settles O55, by the two phases of the slot. -/
theorem writeZeroSlotTakesW0LowPlusD : Obligations.WriteZeroSlotTakesW0LowPlusD := by
  rintro s i a hr (⟨rfl, rfl⟩ | ⟨rfl, rfl, hport⟩)
  · exact hr.write_slot false (.inl rfl) rfl rfl rfl
  · exact hr.write_slot false (.inr ⟨rfl, hport⟩) rfl rfl rfl

/-! ### The read slot in time -/

section
variable {s : State} {a : HostAct}

/-- The Low phase of a read slot ends with the release of the pin (R156). -/
theorem State.SlotReady.read_low_ends (hr : s.SlotReady) (hq : State.Quiet { s with act := a }) :
    (s.phase a s.k 0x05 true s.cfg.a).After (s.cfg.a + 1) (s.phase a (s.k + s.cfg.a) 0x06 false s.cfg.e) :=
  hr.phase_ends hq s.k (by decide) (Slot.read.delay_fits s.cfg) rfl (exec_hRdLow _)

/-- The Sample phase of a read slot ends with the level of the released wire in `SAMPLED` (R157). -/
theorem State.SlotReady.read_sample_ends (hr : s.SlotReady) (hq : State.Quiet { s with act := a }) (k : Nat)
    (he : DelayFits s.cfg.w s.cfg.e) :
    (s.phase a k 0x06 false s.cfg.e).After (s.cfg.e + 1)
      (State.phase { s with sampled := !s.devAt (k + s.cfg.e) } a (k + s.cfg.e) 0x07 false s.cfg.f) := by
  refine hr.phase_ends hq k (by decide) he rfl ?_
  rw [exec_hRdSample, State.line_of_released (s := s.phase a _ 0x06 false _) hr.inited hr.noFault rfl]
  rfl

/-- The Release phase of a read slot ends in Idle (R158). -/
theorem State.SlotReady.read_release_ends (hr : s.SlotReady) (hq : State.Quiet { s with act := a }) (k : Nat)
    (hf : DelayFits s.cfg.w s.cfg.f) :
    (s.phase a k 0x07 false s.cfg.f).After (s.cfg.f + 1) (s.phase a (k + s.cfg.f) 0x00 false s.cfg.f) :=
  hr.phase_ends hq k (by decide) hf rfl (exec_hRdRel _)

end

/-- The response that says a bit is the opposite of `d` (R90). -/
theorem zext8_not (d : Bool) : zext8 (!d) = if d then 0x00 else 0x01 := by
  cases d <;> rfl

/-- Settles O56, by the three phases of the slot. -/
theorem readSlotReturnsLineAtAPlusE : Obligations.ReadSlotReturnsLineAtAPlusE := by
  intro s i a hr hi
  obtain ⟨ha, hq⟩ : armsOf i = some (.read, a) ∧ State.Quiet { s with act := a } := by
    rcases hi with ⟨rfl, rfl⟩ | ⟨rfl, rfl, hport⟩
    · exact ⟨rfl, .inl rfl⟩
    · exact ⟨rfl, .inr ⟨rfl, hport⟩⟩
  obtain ⟨_, _, _, _, _, he, hf, _⟩ := s.cfg.ok
  have hr' := hr.with_sampled (!s.devAt (s.k + s.cfg.a + s.cfg.e))
  have hreleased := hr.read_low_ends hq
  have hsampled := hreleased.trans (hr.read_sample_ends hq (s.k + s.cfg.a) he)
  have hended := hsampled.trans (hr'.read_release_ends hq _ hf)
  rw [show ∀ m n : Nat, m + 1 + (n + 1) = m + n + 2 by omega] at hsampled
  rw [hr'.phase_idle, show ∀ m n p : Nat, m + 1 + (n + 1) + (p + 1) = m + n + p + 3 by omega] at hended
  refine ⟨_, exec_arming_of_idle ha hr.noFault hr.inited hr.idleTag, hr.low_intervals hq .read,
    hr.released_intervals hq (by decide) he hreleased,
    hr'.released_intervals (tag := 0x07) hq (by decide) hf (by rwa [← Nat.add_assoc]), hended, ?_⟩
  rintro rfl
  cases ha
  have hdone := hended.step (step_of_readBitOver rfl (State.serviceEnabled_of_no_pending hr.noPending) hr.noFault
    hr.inited hr.idleTag)
  rwa [← hr.hostIdle, zext8_not] at hdone

/-! ### A wait in which no event is serviced -/

/-- `n` boundaries of a wait in which no event is serviced: only the boundary's number, `CNT` and `IP` have changed, and
with the timer stopped only the boundary's number (R191). -/
structure State.HangsFor (s : State) (n : Nat) (t : State) : Prop where
  unserviced : t.Unserviced
  rest_eq : t = { s with k := s.k + n, cnt := t.cnt, ip := t.ip }
  stopped : s.tRun = false → t.cnt = s.cnt ∧ t.ip = s.ip

theorem State.HangsFor.refl {s : State} (h : s.Unserviced) : s.HangsFor 0 s := ⟨h, rfl, fun _ => ⟨rfl, rfl⟩⟩

theorem State.HangsFor.trans {s t u : State} {m n : Nat} (h : s.HangsFor m t) (h' : t.HangsFor n u) :
    s.HangsFor (m + n) u := by
  have hrun : t.tRun = s.tRun := by rw [h.rest_eq]
  refine ⟨h'.unserviced, ?_, fun hs => ?_⟩
  · rw [h'.rest_eq, h.rest_eq]
    simp only [Nat.add_assoc]
  · obtain ⟨hcnt, hip⟩ := h.stopped hs
    obtain ⟨hcnt', hip'⟩ := h'.stopped (hrun.trans hs)
    exact ⟨hcnt'.trans hcnt, hip'.trans hip⟩

theorem State.Unserviced.serviceEnabled_eq_false {s : State} (h : s.Unserviced) : s.serviceEnabled = false := by
  rw [Bool.eq_false_iff, Ne, State.serviceEnabled_iff]
  rintro ⟨-, -, hip, hie⟩
  rcases h.noService with ⟨-, h⟩ | ⟨h, -⟩
  · exact absurd (hip.symm.trans h) nofun
  · exact absurd (hie.symm.trans h) nofun

/-- Where a TICK is taken, it is the interrupt that is disabled, and the mode has a rule. -/
theorem State.Unserviced.of_tickEnabled {s : State} (h : s.Unserviced) (ht : s.tickEnabled = true) :
    s.tRun = true ∧ s.ie = false ∧ s.tPeriodic = true := by
  obtain ⟨-, -, hrun⟩ := (State.tickEnabled_iff s).1 ht
  rcases h.noService with ⟨hstop, -⟩ | ⟨hie, hp⟩
  · exact absurd (hrun.symm.trans hstop) nofun
  · exact ⟨hrun, hie, hp hrun⟩

/-- With the interrupt disabled no TICK ends the wait. -/
theorem State.Unserviced.hangs_of_tick {s : State} (h : s.Unserviced) (ht : s.tickEnabled = true) (c : Nat) (p : Bool) :
    s.HangsFor 1 { s with k := s.k + 1, cnt := c, ip := p } := by
  obtain ⟨hrun, hie, hp⟩ := h.of_tickEnabled ht
  exact ⟨⟨h.inited, h.noFault, h.waits, h.inFlight, .inr ⟨hie, fun _ => hp⟩⟩, rfl,
    fun hstop => absurd (hrun.symm.trans hstop) nofun⟩

/-- A step of such a wait is a passing boundary, and the wait goes on. -/
theorem State.Unserviced.exists_step {s : State} (h : s.Unserviced) : ∃ t, step s = .next t ∧ s.HangsFor 1 t := by
  have hpass : step s = s.passBoundary :=
    step_of_passes h.serviceEnabled_eq_false (State.hostPasses_of_waits h.waits (.inl h.inFlight))
  rw [hpass]
  rcases s.passBoundary_cases with ⟨-, e⟩ | ⟨ht, hp, -⟩ | ⟨ht, -, -, e⟩ | ⟨ht, -, -, e⟩
  · exact ⟨_, e, ⟨h.inited, h.noFault, h.waits, h.inFlight, h.noService⟩, rfl, fun _ => ⟨rfl, rfl⟩⟩
  · exact absurd ((h.of_tickEnabled ht).2.2.symm.trans hp) nofun
  · exact ⟨_, e, h.hangs_of_tick ht 0 true⟩
  · exact ⟨_, e, h.hangs_of_tick ht _ s.ip⟩

/-- The wait goes on for any number of steps. -/
theorem State.Unserviced.exists_after {s : State} (h : s.Unserviced) (n : Nat) : ∃ t, s.After n t ∧ s.HangsFor n t := by
  induction n with
  | zero => exact ⟨s, State.after_zero s, .refl h⟩
  | succ n ih =>
    obtain ⟨t, hrun, ht⟩ := ih
    obtain ⟨u, hstep, hu⟩ := ht.unserviced.exists_step
    exact ⟨u, hrun.step hstep, ht.trans hu⟩

/-- The pin stays driven as it was, so a line held low is still low. -/
theorem State.HangsFor.line_low {s t : State} {n : Nat} (h : s.HangsFor n t) (hd : s.dir = true)
    (ho : s.out = false) : t.line = false := by
  have hdir : t.dir = s.dir := by rw [h.rest_eq]
  have hout : t.out = s.out := by rw [h.rest_eq]
  exact State.line_of_drives_low h.unserviced.inited h.unserviced.noFault (hdir.trans hd) (hout.trans ho)

/-- Settles O57: by induction on the steps of the wait, which an arming composite enters with the pin low. -/
theorem unservicedWaitHangsTheHost : Obligations.UnservicedWaitHangsTheHost := by
  constructor
  · intro s h n
    obtain ⟨t, hrun, ht⟩ := h.exists_after n
    exact ⟨t, hrun, ht.unserviced, ht.rest_eq, ht.stopped, ht.line_low⟩
  · rintro s i hcomp hi hf h0 hno
    rcases hcomp with rfl | ⟨v, rfl⟩
    · exact ⟨_, exec_arming_of_idle rfl hf hi h0, ⟨hi, hf, rfl, Slot.tag_ne_idle .read, hno⟩, rfl, rfl, rfl, rfl, rfl⟩
    · refine ⟨_, exec_arming_of_idle rfl hf hi h0, ⟨hi, hf, rfl, (slotOfBit v).tag_ne_idle, hno⟩,
        rfl, rfl, rfl, rfl, ?_⟩
      cases v <;> rfl

end Sys2Proof.Machine
end

section
/-! The obligations of 44_byte_operations: START (R210), the byte commands slot by slot (R211, R212), the order of the
bits (R213), the byte commands in time (R214). -/

namespace Sys2Proof.Machine

/-! ### START -/

/-- Settles O18: past the decoder's checks nothing but `T_RUN` is written. -/
theorem startSetsTheTimerRunning : Obligations.StartSetsTheTimerRunning :=
  ⟨rfl, fun _ hf hi => congrArg _ (State.command_of_inited hf hi _ _),
    fun _ hf hi => congrArg _ (State.command_of_not_inited hf hi _ _)⟩

/-! ### The order of the bits -/

/-- `SH[0]` after `n` shifts is bit `n` of the byte: least significant first (R211). -/
theorem nextBit_shiftOut_iterate (b : Byte) (n : Nat) : nextBit (shiftOut^[n] b) = b.getLsbD n := by
  induction n generalizing b with
  | zero => rfl
  | succ n ih =>
    rw [Function.iterate_succ_apply, ih, shiftOut, BitVec.getLsbD_ushiftRight, Nat.add_comm]

/-- An insertion puts the bit at bit 7 and moves every other bit one place down (R212). -/
theorem getLsbD_accInsert (acc : Byte) (r : Bool) {i : Nat} (hi : i < 8) :
    (accInsert acc r).getLsbD i = if i = 7 then r else acc.getLsbD (i + 1) := by
  have hshift : (acc >>> 1).getLsbD i = acc.getLsbD (i + 1) := by
    rw [BitVec.getLsbD_ushiftRight, Nat.add_comm]
  have htop : (0x80 : Byte).getLsbD i = decide (i = 7) := by
    interval_cases i <;> rfl
  cases r with
  | false =>
    rw [accInsert, if_neg nofun, hshift]
    split
    · exact BitVec.getLsbD_of_ge acc _ (by omega)
    · rfl
  | true =>
    rw [accInsert, if_pos rfl, BitVec.getLsbD_or, hshift, htop]
    by_cases h7 : i = 7 <;> simp [h7]

/-- `ACC` after the insertion of the bits `f 0`, `f 1` up to `f (n - 1)`, in this order (R212). -/
def insertedBits (acc : Byte) (f : Nat → Bool) (n : Nat) : Byte := ((List.range n).map f).foldl accInsert acc

theorem insertedBits_succ (acc : Byte) (f : Nat → Bool) (n : Nat) :
    insertedBits acc f (n + 1) = accInsert (insertedBits acc f n) (f n) := by
  simp [insertedBits, List.range_succ]

/-- After `n` insertions the last 8 of the bits of `ACC` and the inserted ones stand in `ACC`. -/
theorem getLsbD_insertedBits (acc : Byte) (f : Nat → Bool) (n : Nat) {i : Nat} (hi : i < 8) :
    (insertedBits acc f n).getLsbD i = if i + n < 8 then acc.getLsbD (i + n) else f (i + n - 8) := by
  induction n generalizing i with
  | zero => simp [insertedBits, hi]
  | succ n ih =>
    rw [insertedBits_succ, getLsbD_accInsert _ _ hi]
    by_cases h7 : i = 7
    · subst h7
      rw [if_pos rfl, if_neg (by omega), show 7 + (n + 1) - 8 = n by omega]
    · rw [if_neg h7, ih (by omega), show i + 1 + n = i + (n + 1) by omega]

/-- After eight insertions bit `i` of `ACC` is the `i`-th bit inserted: the first is bit 0 (R213). -/
theorem getLsbD_insertedBits_eight (acc : Byte) (f : Nat → Bool) {i : Nat} (hi : i < 8) :
    (insertedBits acc f 8).getLsbD i = f i := by
  rw [getLsbD_insertedBits acc f 8 hi, if_neg (by omega), Nat.add_sub_cancel]

/-- Settles O60: bit `i` of what is rebuilt is the `i`-th bit sent, which is bit `i` of the byte. -/
theorem bitOrderRoundTrips : Obligations.BitOrderRoundTrips := by
  intro b acc
  apply BitVec.eq_of_getLsbD_eq
  intro i hi
  exact (getLsbD_insertedBits_eight acc _ hi).trans (nextBit_shiftOut_iterate b i)

/-! ### The slots of a byte command -/

/-- The slot a byte command is about to arm, and how the host goes on after it (R211, R212). -/
def HostAct.armsNext : HostAct → Option (Slot × HostAct)
  | .writeByteArm sh n => some (slotOfBit (nextBit sh), .writeByteWait sh n)
  | .readByteArm acc n => some (.read, .readByteWait acc n)
  | .idle | .waitIdle | .writeBit | .readBit | .writeByteWait _ _ | .readByteWait _ _ => none

section
variable {s : State} {sl : Slot} {a : HostAct}

theorem State.hostContinue_of_armsNext (ha : s.act.armsNext = some (sl, a)) :
    s.hostContinue = some (s.armSlot sl a) := by
  unfold State.hostContinue
  cases hact : s.act with
  | writeByteArm | readByteArm =>
    rw [hact] at ha
    cases ha
    rfl
  | _ =>
    rw [hact] at ha
    cases ha

/-- From Idle a byte command starts its next slot (R180). -/
theorem step_of_armsNext_idle (ha : s.act.armsNext = some (sl, a)) (hs : s.serviceEnabled = false) (hf : s.NoFault)
    (hi : s.inited = true) (h : s.state = 0x00) :
    step s = .next { s with cnt := 0, cmp := sl.delay s.cfg, state := sl.tag, dir := true, act := a } := by
  rw [step_of_hostContinue hs (State.hostContinue_of_armsNext ha), State.armSlot,
    State.command_of_inited (s := { s with act := .idle }) hf hi, State.arm_of_idle (s := { s with act := .idle }) h]

/-- With an operation in flight the arming is F_REENTRY and the byte command ends (R180, R244). -/
theorem step_of_armsNext_busy (ha : s.act.armsNext = some (sl, a)) (hs : s.serviceEnabled = false) (hf : s.NoFault)
    (hi : s.inited = true) (h : s.state ≠ 0x00) :
    step s = .next { s with fault := 3, diag := some (s.state.setWidth 16), act := .idle } := by
  rw [step_of_hostContinue hs (State.hostContinue_of_armsNext ha), State.armSlot,
    State.command_of_inited (s := { s with act := .idle }) hf hi, State.arm_of_busy (s := { s with act := .idle }) hf h]

end

/-- A composite whose place is a poll goes on when the poll finds Idle (R186). -/
theorem step_of_pollOver {s t : State} (hc : s.hostContinue = if s.pollFindsIdle then some t else none)
    (hs : s.serviceEnabled = false) (hf : s.NoFault) (hi : s.inited = true) (h : s.state = 0x00) :
    step s = .next t :=
  step_of_hostContinue hs (hc.trans (if_pos ((State.pollFindsIdle_iff s).2 ⟨hi, hf, h⟩)))

/-- WRITE_BYTE goes on when the poll after its slot finds Idle (R211). -/
theorem step_of_writeByteWait {s : State} {sh : Byte} {n : Nat} (ha : s.act = .writeByteWait sh n)
    (hs : s.serviceEnabled = false) (hf : s.NoFault) (hi : s.inited = true) (h : s.state = 0x00) :
    step s = .next (s.writeByteNext sh n) :=
  step_of_pollOver (by rw [State.hostContinue, ha]) hs hf hi h

/-- READ_BYTE goes on when the poll after its slot finds Idle (R212). -/
theorem step_of_readByteWait {s : State} {acc : Byte} {n : Nat} (ha : s.act = .readByteWait acc n)
    (hs : s.serviceEnabled = false) (hf : s.NoFault) (hi : s.inited = true) (h : s.state = 0x00) :
    step s = .next (s.readByteNext acc n) :=
  step_of_pollOver (by rw [State.hostContinue, ha]) hs hf hi h

theorem State.writeByteNext_eq (s : State) (sh : Byte) (n : Nat) :
    s.writeByteNext sh n = { s with act := if n < 7 then .writeByteArm (shiftOut sh) (n + 1) else .idle } := by
  unfold State.writeByteNext
  split <;> rfl

/-- The first primitive of WRITE_BYTE past the decoder's checks (R211). -/
theorem exec_writeByte {s : State} (b : Byte) (hf : s.NoFault) (hi : s.inited = true) :
    exec (.writeByte b) s = .next { s with tRun := true, act := .writeByteArm b 0 } :=
  congrArg _ (State.command_of_inited hf hi _ _)

/-- The first primitive of READ_BYTE past the decoder's checks (R212). -/
theorem exec_readByte {s : State} (hf : s.NoFault) (hi : s.inited = true) :
    exec .readByte s = .next { s with tRun := true, act := .readByteArm 0x00 0 } :=
  congrArg _ (State.command_of_inited hf hi _ _)

/-- The operand and the opcode of WRITE_BYTE share no bit, so that their sum is the word of the encoder (R83). -/
theorem add_writeByte (b : Byte) : (0xA000 + b.setWidth 16 : CmdWord) = wordOf (.writeByte b) := by
  refine BitVec.add_eq_or_of_and_eq_zero _ _ ?_
  apply BitVec.eq_of_getLsbD_eq
  intro i hi
  rw [BitVec.getLsbD_and, BitVec.getLsbD_zero, Bool.and_eq_false_iff]
  by_cases h8 : i < 8
  · left
    interval_cases i <;> rfl
  · right
    rw [BitVec.getLsbD_setWidth, BitVec.getLsbD_of_ge b i (by omega), Bool.and_false]

/-- Settles O27: the first primitive, the arming of a slot, and the polls of the held host. -/
theorem writeByteTakesEightSlots : Obligations.WriteByteTakesEightSlots := by
  refine ⟨fun b => ?_, fun s b => exec_writeByte b, fun s b hf hi => ?_, fun s sh n ha hs hf hi h => ?_,
    fun s sh n ha => step_of_armsNext_busy (by rw [ha]; rfl), fun s sh n ha hs hf hi h => ?_,
    fun s sh n ha => State.hostPasses_of_waits (by rw [ha]; rfl)⟩
  · rw [add_writeByte]
    exact decodeCommand_writeByte b
  · rw [add_writeByte]
    exact congrArg _ (State.command_of_not_inited hf hi _ _)
  · rw [step_of_armsNext_idle (sl := slotOfBit (nextBit sh)) (by rw [ha]; rfl) hs hf hi h, nextBit]
    cases sh.getLsbD 0 <;> rfl
  · rw [step_of_writeByteWait ha hs hf hi h, State.writeByteNext_eq, shiftOut]

/-- Settles O28: the first primitive, the arming of a slot, and the polls of the held host. -/
theorem readByteTakesEightSlots : Obligations.ReadByteTakesEightSlots :=
  ⟨rfl, fun _ => exec_readByte, fun _ hf hi => congrArg _ (State.command_of_not_inited hf hi _ _),
    fun _ _ _ ha => step_of_armsNext_idle (sl := .read) (by rw [ha]; rfl),
    fun _ _ _ ha => step_of_armsNext_busy (by rw [ha]; rfl), fun _ _ _ => step_of_readByteWait,
    fun _ _ _ ha => State.hostPasses_of_waits (by rw [ha]; rfl)⟩

/-! ### The slots of a byte command in time -/

/-- `s` at the end of a slot, at boundary `k`: the pin released, the counter cleared, the slot's last delay still in
`CMP` (R190). -/
def State.slotEnded (s : State) (k delay : Nat) : State := { s with k := k, cnt := 0, cmp := delay, dir := false }

theorem State.SlotReady.slotEnded {s : State} (hr : s.SlotReady) (k delay : Nat) : (s.slotEnded k delay).SlotReady :=
  ⟨⟨hr.inited, hr.noFault, hr.runs, hr.periodic, hr.enabled, hr.outLow⟩, hr.noPending, hr.idleTag, hr.hostIdle⟩

/-- `t` is ready for a slot, `ticks` after `s`, in the same environment, and the host has received nothing since. -/
structure State.SlotsLater (s : State) (ticks : Nat) (t : State) : Prop where
  ready : t.SlotReady
  k_eq : t.k = s.k + ticks
  cfg_eq : t.cfg = s.cfg
  env_eq : t.env = s.env
  rsp_eq : t.rsp = s.rsp

theorem State.SlotsLater.refl {s : State} (hr : s.SlotReady) : s.SlotsLater 0 s := ⟨hr, rfl, rfl, rfl, rfl⟩

theorem State.SlotsLater.trans {s t u : State} {m n : Nat} (h : s.SlotsLater m t) (h' : t.SlotsLater n u) :
    s.SlotsLater (m + n) u :=
  ⟨h'.ready, by rw [h'.k_eq, h.k_eq, Nat.add_assoc], h'.cfg_eq.trans h.cfg_eq, h'.env_eq.trans h.env_eq,
    h'.rsp_eq.trans h.rsp_eq⟩

theorem State.SlotsLater.devAt_eq {s t : State} {n : Nat} (h : s.SlotsLater n t) : t.devAt = s.devAt := by
  funext j
  rw [State.devAt, State.devAt, h.env_eq]

/-- The first step of a slot of a byte command is its arming (R180). -/
theorem State.SlotReady.after_arming {s : State} (hr : s.SlotReady) {a next : HostAct} {sl : Slot}
    (ha : a.armsNext = some (sl, next)) :
    State.After { s with act := a } 1 (s.phase next s.k sl.tag true (sl.delay s.cfg)) :=
  (State.after_zero _).step (step_of_armsNext_idle (s := { s with act := a }) ha
    (State.serviceEnabled_of_no_pending hr.noPending) hr.noFault hr.inited hr.idleTag)

/-! ### WRITE_BYTE in time -/

/-- A slot of WRITE_BYTE: the arming, the two phases, and the poll that finds Idle (R211). -/
theorem State.SlotReady.write_byte_slot {s : State} (hr : s.SlotReady) (sh : Byte) (n : Nat) :
    ∃ m t, State.After { s with act := .writeByteArm sh n } m (t.writeByteNext sh n) ∧
      s.SlotsLater (Config.writeTicks s.cfg (nextBit sh)) t ∧ t.dir = false := by
  have hq : State.Quiet { s with act := .writeByteWait sh n } := .inl rfl
  have hreleased := (hr.after_arming (a := .writeByteArm sh n) rfl).trans (hr.write_low_ends _ hq)
  have hended := hreleased.trans (hr.write_release_ends _ hq _)
  rw [hr.phase_idle] at hended
  have hnext := hended.step (step_of_writeByteWait rfl (State.serviceEnabled_of_no_pending hr.noPending) hr.noFault
    hr.inited hr.idleTag)
  refine ⟨_, s.slotEnded _ _, hnext, ⟨hr.slotEnded _ _, ?_, rfl, rfl, rfl⟩, rfl⟩
  cases nextBit sh <;> exact Nat.add_assoc _ _ _

/-- WRITE_BYTE is about to arm slot `n`, with bit `n` of its byte next, at the end of the slots before it. -/
theorem State.SlotReady.write_byte_reaches_slot {s : State} (hr : s.SlotReady) (b : Byte) :
    ∀ n, n < 8 → ∃ m t, State.After { s with act := .writeByteArm b 0 } m
      { t with act := .writeByteArm (shiftOut^[n] b) n } ∧ s.SlotsLater (Config.byteTicks s.cfg b n) t := by
  intro n
  induction n with
  | zero => exact fun _ => ⟨0, s, State.after_zero _, .refl hr⟩
  | succ n ih =>
    intro hn
    obtain ⟨m, t, hrun, ht⟩ := ih (by omega)
    obtain ⟨m', u, hslot, hu, -⟩ := ht.ready.write_byte_slot (shiftOut^[n] b) n
    rw [State.writeByteNext_eq, if_pos (by omega), ← Function.iterate_succ_apply' shiftOut] at hslot
    rw [nextBit_shiftOut_iterate, ht.cfg_eq] at hu
    exact ⟨_, u, hrun.trans hslot, ht.trans hu⟩

/-- The ticks of the first `n` slots, by the number of ones among their bits (R214). -/
theorem byteTicks_eq (c : Config) (b : Byte) (n : Nat) :
    Config.byteTicks c b n = (List.range n).countP (b.getLsbD ·) * (c.a + c.b) +
      (n - (List.range n).countP (b.getLsbD ·)) * (c.w0Low + c.d) := by
  induction n with
  | zero => simp [Config.byteTicks]
  | succ n ih =>
    have hle : (List.range n).countP (b.getLsbD ·) ≤ n := by simpa using List.countP_le_length (l := List.range n)
    rw [Config.byteTicks, ih, Config.writeTicks, List.range_succ, List.countP_append, List.countP_singleton]
    cases b.getLsbD n with
    | true =>
      rw [if_pos rfl, if_pos rfl, Nat.add_sub_add_right, Nat.succ_mul]
      exact Nat.add_right_comm _ _ _
    | false =>
      rw [if_neg nofun, if_neg nofun, Nat.add_zero, Nat.succ_sub hle, Nat.succ_mul]
      exact Nat.add_assoc _ _ _

/-- Settles O58: the slots before slot `n` one after another, and the eighth. -/
theorem writeByteTakesTheSumOfItsSlots : Obligations.WriteByteTakesTheSumOfItsSlots := by
  intro s b hr
  refine ⟨_, exec_writeByte b hr.noFault hr.inited, fun n hn => ?_, ?_⟩
  · obtain ⟨m, t, hrun, ht⟩ := hr.write_byte_reaches_slot b n hn
    exact ⟨m, _, hrun, ht.k_eq, ht.ready.noFault, ht.ready.idleTag, _, rfl, nextBit_shiftOut_iterate b n⟩
  · obtain ⟨m, t, hrun, ht⟩ := hr.write_byte_reaches_slot b 7 (by decide)
    obtain ⟨m', u, hslot, hu, hdir⟩ := ht.ready.write_byte_slot (shiftOut^[7] b) 7
    rw [State.writeByteNext_eq, if_neg (by decide)] at hslot
    rw [nextBit_shiftOut_iterate, ht.cfg_eq] at hu
    have hbyte := ht.trans hu
    refine ⟨_, _, hrun.trans hslot, rfl, hu.ready.noFault, hu.ready.idleTag, hdir, hbyte.rsp_eq, ?_⟩
    rw [Nat.add_assoc]
    exact hbyte.k_eq.trans (congrArg _ (byteTicks_eq s.cfg b 8))

/-! ### READ_BYTE in time -/

/-- The level in the interval at whose boundary slot `n` of a READ_BYTE issued in `s` takes its sample (R214). -/
def State.slotSample (s : State) (n : Nat) : Bool := !s.devAt (s.k + n * Config.readTicks s.cfg + s.cfg.a + s.cfg.e)

/-- A slot of READ_BYTE: the arming, the three phases, and the poll that finds Idle (R212). -/
theorem State.SlotReady.read_byte_slot {s : State} (hr : s.SlotReady) (acc : Byte) (n : Nat) :
    ∃ m t, State.After { s with act := .readByteArm acc n } m (t.readByteNext acc n) ∧
      s.SlotsLater (Config.readTicks s.cfg) t ∧ t.dir = false ∧ t.sampled = !s.devAt (s.k + s.cfg.a + s.cfg.e) := by
  have hq : State.Quiet { s with act := .readByteWait acc n } := .inl rfl
  obtain ⟨_, _, _, _, _, he, hf, _⟩ := s.cfg.ok
  have hr' := hr.with_sampled (!s.devAt (s.k + s.cfg.a + s.cfg.e))
  have hreleased := (hr.after_arming (a := .readByteArm acc n) rfl).trans (hr.read_low_ends hq)
  have hended := (hreleased.trans (hr.read_sample_ends hq _ he)).trans (hr'.read_release_ends hq _ hf)
  rw [hr'.phase_idle] at hended
  have hnext := hended.step (step_of_readByteWait rfl (State.serviceEnabled_of_no_pending hr.noPending) hr.noFault
    hr.inited hr.idleTag)
  refine ⟨_, State.slotEnded _ _ _, hnext, ⟨hr'.slotEnded _ _, ?_, rfl, rfl, rfl⟩, rfl, rfl⟩
  change s.k + s.cfg.a + s.cfg.e + s.cfg.f = s.k + (s.cfg.a + s.cfg.e + s.cfg.f)
  omega

/-- Slot `n` of a READ_BYTE leaves its sample inserted after those of the slots before it. -/
theorem State.SlotsLater.read_byte_slot {s t : State} {n : Nat} (h : s.SlotsLater (n * Config.readTicks s.cfg) t) :
    ∃ m u, State.After { t with act := .readByteArm (insertedBits 0x00 s.slotSample n) n } m
        (u.readByteNext (insertedBits 0x00 s.slotSample n) n) ∧
      s.SlotsLater ((n + 1) * Config.readTicks s.cfg) u ∧ u.dir = false ∧
      accInsert (insertedBits 0x00 s.slotSample n) u.sampled = insertedBits 0x00 s.slotSample (n + 1) := by
  obtain ⟨m, u, hrun, hu, hdir, hsampled⟩ := h.ready.read_byte_slot (insertedBits 0x00 s.slotSample n) n
  rw [h.cfg_eq] at hu
  rw [h.devAt_eq, h.k_eq, h.cfg_eq] at hsampled
  refine ⟨m, u, hrun, Nat.succ_mul n _ ▸ h.trans hu, hdir, ?_⟩
  rw [insertedBits_succ, hsampled, State.slotSample]

/-- READ_BYTE is about to arm slot `n`, with the samples of the slots before it inserted, at their end. -/
theorem State.SlotReady.read_byte_reaches_slot {s : State} (hr : s.SlotReady) :
    ∀ n, n < 8 → ∃ m t, State.After { s with act := .readByteArm 0x00 0 } m
      { t with act := .readByteArm (insertedBits 0x00 s.slotSample n) n } ∧
      s.SlotsLater (n * Config.readTicks s.cfg) t := by
  intro n
  induction n with
  | zero => exact fun _ => ⟨0, s, State.after_zero _, (Nat.zero_mul _).symm ▸ .refl hr⟩
  | succ n ih =>
    intro hn
    obtain ⟨m, t, hrun, ht⟩ := ih (by omega)
    obtain ⟨m', u, hslot, hu, -, hacc⟩ := ht.read_byte_slot
    rw [State.readByteNext, if_pos (by omega), hacc] at hslot
    exact ⟨_, u, hrun.trans hslot, hu⟩

/-- Settles O59: the slots one after another; what is returned holds the sample of slot `n` in bit `n`. -/
theorem readByteReturnsTheSampledByte : Obligations.ReadByteReturnsTheSampledByte := by
  intro s hr
  refine ⟨_, exec_readByte hr.noFault hr.inited, ?_⟩
  obtain ⟨m, t, hrun, ht⟩ := hr.read_byte_reaches_slot 7 (by decide)
  obtain ⟨m', u, hslot, hu, hdir, hacc⟩ := ht.read_byte_slot
  rw [State.readByteNext, if_neg (by decide), hacc] at hslot
  exact ⟨_, _, _, hrun.trans hslot, rfl, hu.ready.noFault, hu.ready.idleTag, hdir, hu.k_eq, rfl,
    fun n hn => getLsbD_insertedBits_eight 0x00 _ hn⟩

end Sys2Proof.Machine
end

section
/-! The obligations of 45_init: NOP (R232) and INIT (R230, R231). -/

namespace Sys2Proof.Machine

/-! ### NOP -/

/-- Where the body does nothing it is no matter whether the decoder's first check lets it run (R91). -/
@[simp] theorem State.unlessFaulted_id (s : State) : s.unlessFaulted id = s := ite_self s

/-- Settles O15: let through or refused, NOP leaves the state as it was. -/
theorem nopChangesNothing : Obligations.NopChangesNothing :=
  ⟨rfl, fun s => congrArg _ s.unlessFaulted_id⟩

/-! ### INIT -/

/-- With no fault recorded INIT looks for an operation in flight, and otherwise writes (R230). -/
theorem exec_init_of_noFault {s : State} (hf : s.NoFault) :
    exec .init s =
      .next (if s.inited && !s.isIdle then s.raise .initInflight (s.state.setWidth 16) else s.initWrites) :=
  congrArg _ (if_pos hf)

/-- Before INIT, and in Idle, INIT does its writes (R230). -/
theorem exec_init_of_idle {s : State} (hf : s.NoFault) (h : s.inited = false ∨ s.state = 0x00) :
    exec .init s = .next s.initWrites := by
  have hnone : ¬(s.inited && !s.isIdle) = true := by
    rcases h with hi | h0
    · simp [hi]
    · simp [(State.isIdle_iff s).2 h0]
  rw [exec_init_of_noFault hf, if_neg hnone]

/-- With an operation in flight INIT is F_INIT_INFLIGHT (R230, R245). -/
theorem exec_init_of_busy {s : State} (hf : s.NoFault) (hi : s.inited = true) (h : s.state ≠ 0x00) :
    exec .init s = .next { s with fault := 4, diag := some (s.state.setWidth 16) } := by
  have hbusy : (s.inited && !s.isIdle) = true := by simp [hi, (State.isIdle_eq_false_iff s).2 h]
  rw [exec_init_of_noFault hf, if_pos hbusy, State.raise_of_noFault hf, FaultCode.bits]

/-- Settles O16, by what INIT does in Idle and with an operation in flight. -/
theorem initSetsIdle : Obligations.InitSetsIdle :=
  ⟨rfl, fun _ => exec_init_of_idle, fun _ => exec_init_of_busy⟩

/-- In Idle R42 says of five of INIT's registers what INIT writes there: only `T_RUN` can change (R231). -/
theorem State.Live.initWrites_eq {s : State} (hl : s.Live) (hi : s.inited = true) (h0 : s.state = 0x00) :
    s.initWrites = { s with tRun := s.cfg.initRun } := by
  have hdir : s.dir = false := by rw [hl.drivesInLowPhase, State.inLowPhase, h0]; rfl
  simp [State.initWrites_eq, h0, hdir, hl.outLow, hl.periodic, hl.enabled, hi]

/-- After an INIT that raised no fault, INIT's writes have been done (R231). -/
theorem eq_initWrites_of_exec_init {s t : State} (hx : exec .init s = .next t) (hf : t.NoFault) : t = s.initWrites := by
  cases commandEffect_of_exec rfl hx with
  | refused hs => exact absurd hf hs
  | init _ _ => rfl
  | initInflight _ _ _ => cases hf
  | beforeInit _ _ _ h => exact absurd rfl h
  | armed _ _ _ ha | reentry _ _ _ ha => cases ha

/-- The writes of INIT, done twice, are the writes done once (R231). -/
theorem State.initWrites_initWrites (s : State) : s.initWrites.initWrites = s.initWrites := rfl

/-- Settles O17: in Idle the invariant fixes all that INIT writes but `T_RUN`; a second INIT finds Idle and repeats the
writes of the first. -/
theorem initIsIdempotent : Obligations.InitIsIdempotent := by
  refine ⟨fun s hinv hf hi h0 => ?_, fun s t hx hf => ?_⟩
  · rw [exec_init_of_idle hf (.inr h0), (hinv.live hi hf).initWrites_eq hi h0]
  · obtain rfl := eq_initWrites_of_exec_init hx hf
    rw [exec_init_of_idle hf (.inr s.initWrites_state), s.initWrites_initWrites]

end Sys2Proof.Machine
end

section
/-! The obligations of 60_exceptions: reserved words (R242), commands before INIT (R243), and that the first fault stays
and stops everything but the host's program and time (R248). -/

namespace Sys2Proof.Machine

/-! ### Reserved words -/

/-- Settles O4, by what a step does in which the host issues a word the decoder refuses. -/
theorem reservedWordIsIllegalCommand : Obligations.ReservedWordIsIllegalCommand := by
  intro s w rest e hs hf hd
  rw [step_of_issues hs, hd]
  exact congrArg _ (State.raise_of_noFault (s := s.issue rest) hf .illegalCommand w)

/-! ### Commands before INIT -/

theorem wordOf_of_encode {i : Instr} {w : CmdWord} (h : encode i = .cmd w) : wordOf i = w := by
  rw [wordOf, h]

/-- Only commands have a word (R80). -/
theorem isCommand_of_encode {i : Instr} {w : CmdWord} (h : encode i = .cmd w) : i.isCommand = true := by
  obtain ⟨_, hlegal⟩ := wordLegal i
  rw [h] at hlegal
  exact hlegal.left

/-- Before INIT the one effect of a command other than NOP and INIT is F_USE_BEFORE_INIT: every other effect needs
`INITED = 1` or a fault already recorded (R91, R243). -/
theorem CommandEffect.eq_of_not_inited {s t : State} {i : Instr} (h : CommandEffect s i t) (hf : s.NoFault)
    (hi : s.inited = false) (hnop : i ≠ .nop) (hinit : i ≠ .init) :
    t = { s with fault := 2, diag := some (wordOf i) } := by
  cases h with
  | refused hfault => exact absurd hf hfault
  | beforeInit _ _ _ _ => rfl
  | nop _ => exact absurd rfl hnop
  | init _ _ | initInflight _ _ _ => exact absurd rfl hinit
  | start _ h1 | armed _ h1 _ _ | reentry _ h1 _ _ | rdState _ h1 | rdSample _ h1 | waitDone _ h1 _ | waitHeld _ h1 _
    | writeByte _ h1 | readByte _ h1 => exact absurd (hi.symm.trans h1) nofun

/-- Settles O29, by the one effect a command can have before INIT. -/
theorem commandsBeforeInitFault : Obligations.CommandsBeforeInitFault := by
  intro s i w hf hi hw hnop hinit
  obtain ⟨t, hx, heff⟩ := exec_command i (isCommand_of_encode hw) s
  rw [hx, heff.eq_of_not_inited hf hi hnop hinit, wordOf_of_encode hw]

/-! ### After a fault -/

section
variable {s t : State} {i : Instr}

/-- While a fault is recorded the one effect of a command is to be refused (R91, R248). -/
theorem CommandEffect.eq_of_fault (h : CommandEffect s i t) (hf : s.fault ≠ 0) : t = s := by
  cases h with
  | refused _ => rfl
  | beforeInit h0 _ _ _ | nop h0 | init h0 _ | initInflight h0 _ _ | start h0 _ | armed h0 _ _ _ | reentry h0 _ _ _
    | rdState h0 _ | rdSample h0 _ | waitDone h0 _ _ | waitHeld h0 _ _ | writeByte h0 _ | readByte h0 _ =>
    exact absurd h0 hf

/-- While a fault is recorded the one thing the host can do inside a composite is to leave it (log 9). -/
theorem HostEffect.eq_of_fault (h : HostEffect s t) (hf : s.fault ≠ 0) : t = { s with act := .idle } := by
  cases h with
  | refused _ => rfl
  | waitOver hp _ _ =>
    obtain ⟨_, h0, _⟩ := hp
    exact absurd h0 hf
  | armed h0 _ _ _ _ | beforeInit h0 _ | reentry h0 _ _ => exact absurd h0 hf

theorem exec_command_of_fault (hf : s.fault ≠ 0) (hc : i.isCommand = true) : exec i s = .next s := by
  obtain ⟨t, hx, heff⟩ := exec_command i hc s
  rw [hx, heff.eq_of_fault hf]

theorem State.serviceEnabled_of_fault (hf : s.fault ≠ 0) : s.serviceEnabled = false := by
  rw [← Bool.not_eq_true, State.serviceEnabled_iff]
  exact fun ⟨_, h0, _⟩ => hf h0

/-- While a fault is recorded SERVICE and TICK are not enabled, and a step is one of three: the host leaves its
composite, issues a word that is refused without effect, or lets the boundary pass (R136, R248). -/
theorem step_cases_of_fault (hf : s.fault ≠ 0) :
    step s = .next { s with act := .idle } ∨
      (∃ rest, step s = .next { s with port := rest, rsp := none }) ∨
      (∃ rest, step s = .next { s with port := rest, k := s.k + 1 }) := by
  have hnoService : s.serviceEnabled = false := State.serviceEnabled_of_fault hf
  rcases step_cases s with ⟨_, hs, _⟩ | ⟨_, hs, _⟩ | ⟨t, _, hc, e⟩ | ⟨_, rest, i, _, hd, e⟩ | ⟨w, rest, _, _, _, e⟩ |
    ⟨rest, _, _, e⟩
  · exact absurd (hs.symm.trans hnoService) nofun
  · exact absurd (hs.symm.trans hnoService) nofun
  · exact .inl (by rw [e, (hostContinue_effect hc).2.eq_of_fault hf])
  · exact .inr (.inl ⟨rest, e.trans (exec_command_of_fault (s := s.issue rest) hf (isCommand_of_decodeCommand hd))⟩)
  · exact .inr (.inl ⟨rest, e.trans (congrArg _ (State.raise_of_fault (s := s.issue rest) hf .illegalCommand w))⟩)
  · have ht : s.tickEnabled = false := (State.tickEnabled_eq_false_iff s).2 (.inr (.inr hf))
    exact .inr (.inr ⟨rest, e.trans (State.passBoundary_of_not_tickEnabled (s := { s with port := rest }) ht)⟩)

end

/-- Settles O30: a command is refused, and none of the three steps left after a fault writes a register. -/
theorem faultsAreStickyAndFinal : Obligations.FaultsAreStickyAndFinal := by
  refine ⟨fun s i hf hc => exec_command_of_fault hf hc, fun s hf => ?_⟩
  rcases step_cases_of_fault hf with e | ⟨rest, e⟩ | ⟨rest, e⟩ <;> exact ⟨_, e, rfl⟩

end Sys2Proof.Machine
end

section
/-! The obligations of three sections: hardware reset (70_reset_and_hazards R280), the one mode in which a step stops
(93_implementation_defined U21), the placing of an instruction (30_encoding sections 2 and 3). -/

namespace Sys2Proof.Machine

/-! ### The one stop -/

/-- Every step answers a next state but the passing of a boundary with the timer running in the non-periodic mode, which
stops by name (93 U21; log 11). -/
theorem step_next_or_stop (s : State) :
    (∃ t, step s = .next t) ∨
      (step s = .fault .timerNotPeriodic ∧ s.serviceEnabled = false ∧ s.tickEnabled = true ∧ s.tPeriodic = false ∧
        ∃ rest, s.HostPasses rest) := by
  rcases step_cases s with ⟨_, _, hd, e⟩ | ⟨_, _, _, e⟩ | ⟨t, _, _, e⟩ | ⟨_, rest, i, _, hd, e⟩ | ⟨_, _, _, _, _, e⟩ |
    ⟨rest, hs, hpass, e⟩
  · obtain ⟨t, hx, _⟩ := exec_microStep hd
    exact .inl ⟨t, e.trans hx⟩
  · exact .inl ⟨_, e⟩
  · exact .inl ⟨t, e⟩
  · obtain ⟨t, hx, _⟩ := exec_command i (isCommand_of_decodeCommand hd) (s.issue rest)
    exact .inl ⟨t, e.trans hx⟩
  · exact .inl ⟨_, e⟩
  · rcases State.passBoundary_cases { s with port := rest } with ⟨_, hb⟩ | ⟨ht, hp, hb⟩ | ⟨_, _, _, hb⟩ | ⟨_, _, _, hb⟩
    · exact .inl ⟨_, e.trans hb⟩
    · exact .inr ⟨e.trans hb, hs, ht, hp, rest, hpass⟩
    · exact .inl ⟨_, e.trans hb⟩
    · exact .inl ⟨_, e.trans hb⟩

/-- A boundary at which TICK is enabled in the non-periodic mode (93 U21; log 11). -/
theorem State.passBoundary_of_not_periodic {s : State} (ht : s.tickEnabled = true) (hp : s.tPeriodic = false) :
    s.passBoundary = .fault .timerNotPeriodic := by
  rcases s.passBoundary_cases with ⟨h, -⟩ | ⟨-, -, e⟩ | ⟨-, h, -⟩ | ⟨-, h, -⟩
  · exact absurd (ht.symm.trans h) nofun
  · exact e
  all_goals exact absurd (hp.symm.trans h) nofun

/-- Settles O13: the step that stops is the passing of a non-periodic boundary, and such a boundary stops. -/
theorem onlyNonPeriodicTimerStops : Obligations.OnlyNonPeriodicTimerStops := by
  intro s
  refine ⟨(step_next_or_stop s).imp_right And.left, fun hstop => ?_, fun ⟨hi, hf, hr, hp, hs, rest, hpass⟩ => ?_⟩
  · rcases step_next_or_stop s with ⟨_, e⟩ | ⟨_, hs, ht, hp, hpass⟩
    · exact absurd (hstop.symm.trans e) nofun
    · obtain ⟨hi, hf, hr⟩ := (State.tickEnabled_iff s).1 ht
      exact ⟨hi, hf, hr, hp, hs, hpass⟩
  · have ht : s.tickEnabled = true := (State.tickEnabled_iff s).2 ⟨hi, hf, hr⟩
    exact (step_of_passes hs hpass).trans (State.passBoundary_of_not_periodic (s := { s with port := rest }) ht hp)

/-! ### Hardware reset -/

/-- Settles O52: at reset `INITED` and `FAULT` are 0, INIT does its writes, and the one effect of a command other than
NOP and INIT is F_USE_BEFORE_INIT. -/
theorem resetAllowsOnlyNopAndInit : Obligations.ResetAllowsOnlyNopAndInit := by
  obtain ⟨_, hnopKeeps⟩ := nopChangesNothing
  refine ⟨rfl, rfl, hnopKeeps _, ⟨_, exec_init_of_idle rfl (.inl rfl), ?_⟩, fun i hc hnop hinit => ?_⟩
  · exact ⟨rfl, rfl, rfl, rfl, rfl, rfl, rfl, rfl, rfl, rfl, rfl, rfl⟩
  · obtain ⟨t, hx, heff⟩ := exec_command i hc State.reset
    exact ⟨t, hx, by rw [heff.eq_of_not_inited rfl rfl hnop hinit]⟩

/-! ### The placing of an instruction -/

/-- A decoder whose answer is kept as an option accepted the word. -/
theorem eq_ok_of_toOption {r : Except DecodeError Instr} {i : Instr} (h : r.toOption = some i) : r = .ok i := by
  cases r with
  | ok _ => exact congrArg _ (Option.some.inj h)
  | error _ => cases h

/-- Eight bits are read as a state tag (R80). -/
theorem decodeTag_of_decodeTableWord {w : Nat} {i : Instr} (h : decodeTableWord 8 w = some i) :
    decodeTag (BitVec.ofNat 8 w) = .ok i := eq_ok_of_toOption h

/-- Sixteen bits are read as a command word (R80). -/
theorem decodeCommand_of_decodeTableWord {w : Nat} {i : Instr} (h : decodeTableWord 16 w = some i) :
    decodeCommand (BitVec.ofNat 16 w) = .ok i := eq_ok_of_toOption h

/-- Where a tag was placed SERVICE comes next (R150; log 17). -/
@[simp] theorem State.placeTag_serviceEnabled (s : State) (t : Byte) : (s.placeTag t).serviceEnabled = true := rfl

/-- Where a command was placed SERVICE does not come before it: an event that it would have taken is gone (log 17). -/
@[simp] theorem State.placeCommand_serviceEnabled (s : State) (w : CmdWord) :
    (s.placeCommand w).serviceEnabled = false := by
  cases hs : s.serviceEnabled with
  | false =>
    have hip : (s.placeCommand w).ip = s.ip := if_neg (Bool.eq_false_iff.1 hs)
    rw [← hs, State.serviceEnabled, hip]
    rfl
  | true => exact State.serviceEnabled_of_no_pending (if_pos hs)

/-- Where a command was placed the host issues it next (log 17). -/
theorem State.placeCommand_issues (s : State) (w : CmdWord) : (s.placeCommand w).Issues w s.port :=
  ⟨s.placeCommand_serviceEnabled w, rfl, rfl⟩

/-- Settles O7: a placed tag is serviced next, a placed command is issued next. -/
theorem placedInstructionRunsNext : Obligations.PlacedInstructionRunsNext :=
  ⟨fun s _ _ h => step_of_servicedTag (s.placeTag_serviceEnabled _) rfl (decodeTag_of_decodeTableWord h),
    fun s _ _ h => stepRunsTheIssuedCommand _ _ _ _ (s.placeCommand_issues _) (decodeCommand_of_decodeTableWord h)⟩

end Sys2Proof.Machine
end
